-- ==== Sys2Proof/Word.lean ====
section
/-! DEFINITION. The words of the block (00_scope.md R5, 20_memory.md R50): names for the fixed widths, nothing else. -/

namespace Sys2Proof

/-- A bus register, a silo entry, AC, MQ: 16 bits (R5). -/
abbrev Word := BitVec 16

/-- The 32-bit value D = AC:MQ (R5, R24). -/
abbrev Long := BitVec 32

/-- A 9-bit cycle descriptor (30_encoding.md R70). -/
abbrev Desc := BitVec 9

end Sys2Proof
end

