-- ==== Sys2Proof/Machine/Bits.lean ====
section
/-! DEFINITION. The notation of 00_scope.md section 4 as functions: 32-bit joins and halves (R8), reductions (R9), shifts on 32-bit
patterns (R10), division (R11) and sign helpers (R12). -/

namespace Sys2Proof.Machine

/-- `D = AC : MQ` (R8, R24). -/
def joinD (ac mq : Word) : Long := ac ++ mq

/-- `t[31:16]` (R8). -/
def hiWord (t : Long) : Word := t.extractLsb' 16 16

/-- `t[15:0]` (R8). -/
def loWord (t : Long) : Word := t.extractLsb' 0 16

/-- `u16(i)` (R9). -/
def u16 (i : Int) : Word := BitVec.ofInt 16 i

/-- `u32(i)` (R9). -/
def u32 (i : Int) : Long := BitVec.ofInt 32 i

/-- `shl32(x, k)` (R10). -/
def shl32 (x : Long) (k : Nat) : Long := x <<< k

/-- `lsr32(x, k)` (R10). -/
def lsr32 (x : Long) (k : Nat) : Long := x >>> k

/-- `asr32(x, k)` (R10). -/
def asr32 (x : Long) (k : Nat) : Long := x.sshiftRight k

/-- `neg(b)` (R10): all bits equal to b. -/
def negBit (b : Bool) : Long := if b then 0xFFFFFFFF else 0

/-- `tdiv(a, b)`: truncated toward zero (R11). -/
def tdiv (a b : Int) : Int := Int.tdiv a b

/-- `trem(a, b) = a - b * tdiv(a, b)` (R11). -/
def trem (a b : Int) : Int := a - b * tdiv a b

/-- `sign_byte(x) = x[7]` (R12). -/
def signByte (x : Word) : Bool := x.getLsbD 7

/-- `sign_word(x) = x[15]` (R12). -/
def signWord (x : Word) : Bool := x.getLsbD 15

/-- `sign_long(x) = x[31]` (R12). -/
def signLong (x : Long) : Bool := x.getLsbD 31

/-- A word with one bit set or kept: `v[k] <- 1`. -/
def setBit (v : Word) (k : Fin 16) : Word := v ||| (1#16 <<< k.val)

end Sys2Proof.Machine
end

