-- ==== Sys2Proof/Machine/Regs.lean ====
section
/-! DEFINITION. The names the bus selects by: the eight EAE registers (10_state.md R20), the access modes of a cycle
(00_scope.md R15), and the EAE's eight latches of one kind as named fields (R31). -/

namespace Sys2Proof

/-- The eight EAE registers, in index order (R20). -/
inductive EaeReg where
  | div | ac | mq | mul | scsr | nor | lsh | ash
  deriving DecidableEq, Repr

/-- The access mode of a bus cycle (R15, 20_memory.md R51). -/
inductive Access where
  | word | bytel | byteh
  deriving DecidableEq, Repr

/-- One latch of each EAE register: all the read latches, or all the write latches (R31). -/
structure EaeLatches where
  div : Word
  ac : Word
  mq : Word
  mul : Word
  scsr : Word
  nor : Word
  lsh : Word
  ash : Word
  deriving DecidableEq, Repr

/-- The register at an index, 0..7 (R20). -/
def EaeReg.ofIdx (i : BitVec 3) : EaeReg :=
  match i.toNat with
  | 0 => .div
  | 1 => .ac
  | 2 => .mq
  | 3 => .mul
  | 4 => .scsr
  | 5 => .nor
  | 6 => .lsh
  | _ => .ash

/-- The index of a register (R20). -/
def EaeReg.idx : EaeReg → BitVec 3
  | .div => 0
  | .ac => 1
  | .mq => 2
  | .mul => 3
  | .scsr => 4
  | .nor => 5
  | .lsh => 6
  | .ash => 7

/-- The latch of a register. -/
def EaeLatches.get (l : EaeLatches) : EaeReg → Word
  | .div => l.div
  | .ac => l.ac
  | .mq => l.mq
  | .mul => l.mul
  | .scsr => l.scsr
  | .nor => l.nor
  | .lsh => l.lsh
  | .ash => l.ash

/-- The latches with one register's replaced. -/
def EaeLatches.set (l : EaeLatches) (r : EaeReg) (v : Word) : EaeLatches :=
  match r with
  | .div => { l with div := v }
  | .ac => { l with ac := v }
  | .mq => { l with mq := v }
  | .mul => { l with mul := v }
  | .scsr => { l with scsr := v }
  | .nor => { l with nor := v }
  | .lsh => { l with lsh := v }
  | .ash => { l with ash := v }

/-- Every latch at one value. -/
def EaeLatches.fill (v : Word) : EaeLatches := ⟨v, v, v, v, v, v, v, v⟩

end Sys2Proof
end

