-- ==== Sys2Proof/Syntax.lean ====
section
/-! DEFINITION. The block's operations: one constructor per row of spec/opcode_table.json, in the table's order. The operands
that travel beside the cycle descriptor (30_encoding.md R72) are the constructors' arguments. -/

namespace Sys2Proof

/-- One event delivered to the block (30_encoding.md R70, R74 to R76). -/
inductive Instr where
  /-- DATI DIV, 0x000 (R168) -/
  | datiDiv
  /-- DATO.W DIV, 0x008 (R131) -/
  | datoWDiv (data : Word)
  /-- DATO.BL DIV, 0x018 (R131) -/
  | datoBLDiv (data : Word)
  /-- DATO.BH DIV, 0x028 (R131) -/
  | datoBHDiv (data : Word)
  /-- DATI AC, 0x001 (R165) -/
  | datiAc
  /-- DATO.W AC, 0x009 (R160) -/
  | datoWAc (data : Word)
  /-- DATO.BL AC, 0x019 (R160) -/
  | datoBLAc (data : Word)
  /-- DATO.BH AC, 0x029 (R160) -/
  | datoBHAc (data : Word)
  /-- DATI MQ, 0x002 (R166) -/
  | datiMq
  /-- DATO.W MQ, 0x00A (R161) -/
  | datoWMq (data : Word)
  /-- DATO.BL MQ, 0x01A (R161) -/
  | datoBLMq (data : Word)
  /-- DATO.BH MQ, 0x02A (R161) -/
  | datoBHMq (data : Word)
  /-- DATI MUL, 0x003 (R169) -/
  | datiMul
  /-- DATO.W MUL, 0x00B (R130) -/
  | datoWMul (data : Word)
  /-- DATO.BL MUL, 0x01B (R130) -/
  | datoBLMul (data : Word)
  /-- DATO.BH MUL, 0x02B (R130) -/
  | datoBHMul (data : Word)
  /-- DATI SCSR, 0x004 (R167) -/
  | datiScsr
  /-- DATO.W SCSR, 0x00C (R162) -/
  | datoWScsr (data : Word)
  /-- DATO.BL SCSR, 0x01C (R163) -/
  | datoBLScsr (data : Word)
  /-- DATO.BH SCSR, 0x02C (R163) -/
  | datoBHScsr (data : Word)
  /-- DATI NOR, 0x005 (R164) -/
  | datiNor
  /-- DATO.W NOR, 0x00D (R140) -/
  | datoWNor (data : Word)
  /-- DATO.BL NOR, 0x01D (R140) -/
  | datoBLNor (data : Word)
  /-- DATO.BH NOR, 0x02D (R140) -/
  | datoBHNor (data : Word)
  /-- DATI LSH, 0x006 (R170) -/
  | datiLsh
  /-- DATO.W LSH, 0x00E (R143) -/
  | datoWLsh (data : Word)
  /-- DATO.BL LSH, 0x01E (R143) -/
  | datoBLLsh (data : Word)
  /-- DATO.BH LSH, 0x02E (R143) -/
  | datoBHLsh (data : Word)
  /-- DATI ASH, 0x007 (R171) -/
  | datiAsh
  /-- DATO.W ASH, 0x00F (R149) -/
  | datoWAsh (data : Word)
  /-- DATO.BL ASH, 0x01F (R149) -/
  | datoBLAsh (data : Word)
  /-- DATO.BH ASH, 0x02F (R149) -/
  | datoBHAsh (data : Word)
  /-- DATI SER[0], 0x040 (SCR under the default map; R190, R186 if index 0 is the dequeue register) -/
  | datiSer0
  /-- DATI SER[1], 0x041 (the dequeue register under the default map; R186) -/
  | datiSer1
  /-- DATI SER[2], 0x042 (LPR under the default map; R190) -/
  | datiSer2
  /-- DATI SER[3], 0x043 (CAR under the default map; R190) -/
  | datiSer3
  /-- DATI SER[4], 0x044 (BCR under the default map; R190) -/
  | datiSer4
  /-- DATI SER[5], 0x045 (BAR under the default map; R190) -/
  | datiSer5
  /-- DATI SER[6], 0x046 (BRCR under the default map; R190) -/
  | datiSer6
  /-- DATI SER[7], 0x047 (SSR under the default map; R190) -/
  | datiSer7
  /-- DATO.W SER[idx], 0x048 + idx (R191) -/
  | datoWSer (idx : BitVec 3) (data : Word)
  /-- DATO.BL SER[idx], 0x058 + idx (R191) -/
  | datoBLSer (idx : BitVec 3) (data : Word)
  /-- DATO.BH SER[idx], 0x068 + idx (R191) -/
  | datoBHSer (idx : BitVec 3) (data : Word)
  /-- ENQ, 0x080 (R182): a received character, its line and its error flags. The operands are held as 16-bit words, as the
  caller may pass them; R72's widths are `WellFormed`'s, and the meaning masks them (R183). -/
  | enq (char line : Word) (parityErr framingErr overrun : Bool)
  /-- DEQ, 0x081 (R186), the port form of a dequeue -/
  | deq
  /-- INIT asserted, 0x100 (R240, R243) -/
  | init
  /-- DCLO rising edge, 0x101 (R241) -/
  | dclo
  /-- ACLO edge, 0x102 (R242) -/
  | aclo
  /-- INIT deasserted, 0x103 (R244) -/
  | initOff
  deriving DecidableEq, Repr

end Sys2Proof
end

