-- ==== Sys2Proof/WellFormed.lean ====
section
/-! DEFINITION. Well-formed operations: the operand widths of 30_encoding.md R72 that the constructors' types do not already fix.
Every other operand is exactly as wide as its type, so only a receive-port enqueue can be ill-formed. -/

namespace Sys2Proof

/-- A receive-port enqueue carries `char[7:0]` (R72). -/
def charFits (char : Word) : Bool := decide (char.toNat < 2 ^ 8)

/-- A receive-port enqueue carries `line[3:0]` (R72). -/
def lineFits (line : Word) : Bool := decide (line.toNat < 2 ^ 4)

/-- The operands of the event have the widths of R72. -/
def Instr.wellFormed : Instr → Bool
  | .datiDiv | .datoWDiv _ | .datoBLDiv _ | .datoBHDiv _ => true
  | .datiAc | .datoWAc _ | .datoBLAc _ | .datoBHAc _ => true
  | .datiMq | .datoWMq _ | .datoBLMq _ | .datoBHMq _ => true
  | .datiMul | .datoWMul _ | .datoBLMul _ | .datoBHMul _ => true
  | .datiScsr | .datoWScsr _ | .datoBLScsr _ | .datoBHScsr _ => true
  | .datiNor | .datoWNor _ | .datoBLNor _ | .datoBHNor _ => true
  | .datiLsh | .datoWLsh _ | .datoBLLsh _ | .datoBHLsh _ => true
  | .datiAsh | .datoWAsh _ | .datoBLAsh _ | .datoBHAsh _ => true
  | .datiSer0 | .datiSer1 | .datiSer2 | .datiSer3 | .datiSer4 | .datiSer5 | .datiSer6 | .datiSer7 => true
  | .datoWSer _ _ | .datoBLSer _ _ | .datoBHSer _ _ => true
  | .enq char line _ _ _ => charFits char && lineFits line
  | .deq => true
  | .init | .dclo | .aclo | .initOff => true

end Sys2Proof
end

