-- ==== Sys2Proof/Decode.lean ====
section
/-! DEFINITION. Decoding: from a 9-bit cycle descriptor (30_encoding.md R70) and the operands beside it (R72) to an operation,
total on all 512 descriptors, the reserved ones refused by name (R77); then the encoder, from the opcode map of R74 to R76. -/

namespace Sys2Proof

/-- What travels beside a descriptor (R72): the data word of a DATO, and the five operands of a receive-port enqueue. An event
that carries fewer ignores the rest. -/
structure EventOperands where
  data : Word
  char : Word
  line : Word
  parityErr : Bool
  framingErr : Bool
  overrun : Bool
  deriving DecidableEq, Repr

/-- All operands zero. -/
def EventOperands.zero : EventOperands := ⟨0, 0, 0, false, false, false⟩

/-- The operands of a DATO: its data word (R72). -/
def EventOperands.ofData (data : Word) : EventOperands := ⟨data, 0, 0, false, false, false⟩

/-- Why a descriptor is reserved: the five clauses of R77. -/
inductive Reserved where
  /-- `kind = 11` -/
  | kind
  /-- `kind = 00` with `acc = 11` -/
  | acc
  /-- `kind = 00`, a DATI with `acc` other than 00 -/
  | datiAccess
  /-- `kind = 01` with `E[6:1]` not zero -/
  | port
  /-- `kind = 10` with `E[6:2]` not zero -/
  | signal
  deriving DecidableEq, Repr

/-- `E[8:7]` (R70). -/
def descKind (d : Desc) : BitVec 2 := d.extractLsb' 7 2

/-- `E[6]`: 1 for the serial window (R70). -/
def descBlk (d : Desc) : Bool := d.getLsbD 6

/-- `E[5:4]` (R70). -/
def descAcc (d : Desc) : BitVec 2 := d.extractLsb' 4 2

/-- `E[3]`: 1 for a DATO (R70). -/
def descCtl (d : Desc) : Bool := d.getLsbD 3

/-- `E[2:0]` (R70). -/
def descIdx (d : Desc) : BitVec 3 := d.extractLsb' 0 3

/-- The access mode of a DATO; 11 is reserved (R70, R77). -/
def decodeAccess (a : BitVec 2) : Option Access :=
  match a.toNat with
  | 0 => some .word
  | 1 => some .bytel
  | 2 => some .byteh
  | _ => none

/-- DATI of an EAE register (R74). -/
def eaeDatiInstr : EaeReg → Instr
  | .div => .datiDiv
  | .ac => .datiAc
  | .mq => .datiMq
  | .mul => .datiMul
  | .scsr => .datiScsr
  | .nor => .datiNor
  | .lsh => .datiLsh
  | .ash => .datiAsh

/-- DATO of an EAE register with an access mode and a data word (R74). -/
def eaeDatoInstr (r : EaeReg) (acc : Access) (data : Word) : Instr :=
  match r, acc with
  | .div, .word => .datoWDiv data
  | .div, .bytel => .datoBLDiv data
  | .div, .byteh => .datoBHDiv data
  | .ac, .word => .datoWAc data
  | .ac, .bytel => .datoBLAc data
  | .ac, .byteh => .datoBHAc data
  | .mq, .word => .datoWMq data
  | .mq, .bytel => .datoBLMq data
  | .mq, .byteh => .datoBHMq data
  | .mul, .word => .datoWMul data
  | .mul, .bytel => .datoBLMul data
  | .mul, .byteh => .datoBHMul data
  | .scsr, .word => .datoWScsr data
  | .scsr, .bytel => .datoBLScsr data
  | .scsr, .byteh => .datoBHScsr data
  | .nor, .word => .datoWNor data
  | .nor, .bytel => .datoBLNor data
  | .nor, .byteh => .datoBHNor data
  | .lsh, .word => .datoWLsh data
  | .lsh, .bytel => .datoBLLsh data
  | .lsh, .byteh => .datoBHLsh data
  | .ash, .word => .datoWAsh data
  | .ash, .bytel => .datoBLAsh data
  | .ash, .byteh => .datoBHAsh data

/-- DATI of a serial register (R75). -/
def serDatiInstr (i : BitVec 3) : Instr :=
  match i.toNat with
  | 0 => .datiSer0
  | 1 => .datiSer1
  | 2 => .datiSer2
  | 3 => .datiSer3
  | 4 => .datiSer4
  | 5 => .datiSer5
  | 6 => .datiSer6
  | _ => .datiSer7

/-- DATO of a serial register (R75). -/
def serDatoInstr (i : BitVec 3) (acc : Access) (data : Word) : Instr :=
  match acc with
  | .word => .datoWSer i data
  | .bytel => .datoBLSer i data
  | .byteh => .datoBHSer i data

/-- The enqueue an event's operands stand for: `char[7:0]` and `line[3:0]` are all that R72 lets it carry. -/
def enqInstr (o : EventOperands) : Instr :=
  .enq (o.char &&& 0x00FF) (o.line &&& 0x000F) o.parityErr o.framingErr o.overrun

/-- A bus cycle's descriptor (R74, R75, R77). -/
def decodeCycle (d : Desc) (o : EventOperands) : Except Reserved Instr :=
  match decodeAccess (descAcc d) with
  | none => .error .acc
  | some acc =>
    if descCtl d then
      .ok (if descBlk d then serDatoInstr (descIdx d) acc o.data else eaeDatoInstr (.ofIdx (descIdx d)) acc o.data)
    else if acc = .word then
      .ok (if descBlk d then serDatiInstr (descIdx d) else eaeDatiInstr (.ofIdx (descIdx d)))
    else .error .datiAccess

/-- A receive-port event's descriptor (R76, R77). -/
def decodePort (d : Desc) (o : EventOperands) : Except Reserved Instr :=
  if d.extractLsb' 1 6 = 0 then .ok (if d.getLsbD 0 then .deq else enqInstr o) else .error .port

/-- A bus signal's descriptor (R76, R77). -/
def decodeSignal (d : Desc) : Except Reserved Instr :=
  if d.extractLsb' 2 5 = 0 then
    .ok (match (d.extractLsb' 0 2).toNat with
      | 0 => .init
      | 1 => .dclo
      | 2 => .aclo
      | _ => .initOff)
  else .error .signal

/-- The decoder, total on all 512 descriptors (R70). -/
def decode (d : Desc) (o : EventOperands) : Except Reserved Instr :=
  match (descKind d).toNat with
  | 0 => decodeCycle d o
  | 1 => decodePort d o
  | 2 => decodeSignal d
  | _ => .error .kind

/-- The descriptor of an operation: the values R74, R75 and R76 list. -/
def encodeDesc : Instr → Desc
  | .datiDiv => 0x000
  | .datiAc => 0x001
  | .datiMq => 0x002
  | .datiMul => 0x003
  | .datiScsr => 0x004
  | .datiNor => 0x005
  | .datiLsh => 0x006
  | .datiAsh => 0x007
  | .datoWDiv _ => 0x008
  | .datoWAc _ => 0x009
  | .datoWMq _ => 0x00A
  | .datoWMul _ => 0x00B
  | .datoWScsr _ => 0x00C
  | .datoWNor _ => 0x00D
  | .datoWLsh _ => 0x00E
  | .datoWAsh _ => 0x00F
  | .datoBLDiv _ => 0x018
  | .datoBLAc _ => 0x019
  | .datoBLMq _ => 0x01A
  | .datoBLMul _ => 0x01B
  | .datoBLScsr _ => 0x01C
  | .datoBLNor _ => 0x01D
  | .datoBLLsh _ => 0x01E
  | .datoBLAsh _ => 0x01F
  | .datoBHDiv _ => 0x028
  | .datoBHAc _ => 0x029
  | .datoBHMq _ => 0x02A
  | .datoBHMul _ => 0x02B
  | .datoBHScsr _ => 0x02C
  | .datoBHNor _ => 0x02D
  | .datoBHLsh _ => 0x02E
  | .datoBHAsh _ => 0x02F
  | .datiSer0 => 0x040
  | .datiSer1 => 0x041
  | .datiSer2 => 0x042
  | .datiSer3 => 0x043
  | .datiSer4 => 0x044
  | .datiSer5 => 0x045
  | .datiSer6 => 0x046
  | .datiSer7 => 0x047
  | .datoWSer i _ => 0x048 + i.setWidth 9
  | .datoBLSer i _ => 0x058 + i.setWidth 9
  | .datoBHSer i _ => 0x068 + i.setWidth 9
  | .enq _ _ _ _ _ => 0x080
  | .deq => 0x081
  | .init => 0x100
  | .dclo => 0x101
  | .aclo => 0x102
  | .initOff => 0x103

/-- The operands that travel beside an operation's descriptor (R72); zero where it carries none. -/
def encodeOperands : Instr → EventOperands
  | .datoWDiv data | .datoBLDiv data | .datoBHDiv data => .ofData data
  | .datoWAc data | .datoBLAc data | .datoBHAc data => .ofData data
  | .datoWMq data | .datoBLMq data | .datoBHMq data => .ofData data
  | .datoWMul data | .datoBLMul data | .datoBHMul data => .ofData data
  | .datoWScsr data | .datoBLScsr data | .datoBHScsr data => .ofData data
  | .datoWNor data | .datoBLNor data | .datoBHNor data => .ofData data
  | .datoWLsh data | .datoBLLsh data | .datoBHLsh data => .ofData data
  | .datoWAsh data | .datoBLAsh data | .datoBHAsh data => .ofData data
  | .datoWSer _ data | .datoBLSer _ data | .datoBHSer _ data => .ofData data
  | .enq char line pe fe ovr => ⟨0, char, line, pe, fe, ovr⟩
  | .datiDiv | .datiAc | .datiMq | .datiMul | .datiScsr | .datiNor | .datiLsh | .datiAsh => .zero
  | .datiSer0 | .datiSer1 | .datiSer2 | .datiSer3 | .datiSer4 | .datiSer5 | .datiSer6 | .datiSer7 => .zero
  | .deq | .init | .dclo | .aclo | .initOff => .zero

/-- An operation's event: its descriptor and its operands. -/
def encode (i : Instr) : Desc × EventOperands := (encodeDesc i, encodeOperands i)

/-- The descriptor in an instruction numbered as spec/opcode_table.json numbers it: bits 8..0 of the first word. The table gives
the operands no bits, so they are zero, and bits above 8 only fill the descriptor up to whole bytes (log 17). -/
def descOfTableWord (w : Nat) : Desc := BitVec.ofNat 9 w

/-- What the decoder reads from a table word, its operands zero. -/
def decodeTableWord (_nbits w : Nat) : Option Instr :=
  match decode (descOfTableWord w) .zero with
  | .ok i => some i
  | .error _ => none

end Sys2Proof
end

