-- ==== Sys2Proof/Config.lean ====
section
/-! DEFINITION. The configuration parameters of the hardware (00_scope.md R6) as one structure, the conditions the spec puts on
them, and the free value of an empty read. The VALUES this hardware takes are in Sys2Proof/Machine/Defaults.lean. -/

namespace Sys2Proof

/-- EMPTY_READ_POLICY (R6, 44_silo.md R187): what bits 14..0 of a dequeue from an empty silo are. -/
inductive EmptyReadPolicy where
  /-- the low 15 bits of `silo[0]` as the array holds it -/
  | stale
  /-- a value drawn fresh for every read -/
  | any
  deriving DecidableEq, Repr

/-- SR_LAYOUT (10_state.md R29): the bit of the SR byte at which each of the eight flags stands. -/
structure SrLayout where
  n : Fin 8
  nxv : Fin 8
  c : Fin 8
  mqz : Fin 8
  acz : Fin 8
  acm1 : Fin 8
  sxt : Fin 8
  z : Fin 8
  deriving DecidableEq, Repr

/-- SER_REGMAP (10_state.md R41): the index of each named serial register. The silo's rules use only `scr`, `deq` and `ssr`;
the meanings of the others are not in the source (91_not_in_source.md N17). -/
structure SerRegmap where
  scr : Fin 8
  deq : Fin 8
  lpr : Fin 8
  car : Fin 8
  bcr : Fin 8
  bar : Fin 8
  brcr : Fin 8
  ssr : Fin 8
  deriving DecidableEq, Repr

/-- A contiguous range of bus byte addresses that one device claims (20_memory.md R50, R57). -/
structure Window where
  base : Nat
  bytes : Nat
  deriving DecidableEq, Repr

/-- The address lies in the window (R51). -/
def Window.holds (w : Window) (a : Nat) : Bool :=
  decide (w.base ≤ a) && decide (a < w.base + w.bytes)

/-- The two windows share an address (R57). -/
def Window.meets (u v : Window) : Bool :=
  decide (u.base < v.base + v.bytes) && decide (v.base < u.base + u.bytes)

/-- The configuration of one block: every row of R6's table, and whether each device is enabled (R68). -/
structure Config where
  /-- is the EAE enabled; a device that is not answers no cycle (20_memory.md R57) -/
  eaeEnabled : Bool
  eaeBase : Nat
  /-- the number of registers of the EAE that have an address (R20, R50; log 2) -/
  eaeRegs : Nat
  /-- configured, never requested (60_exceptions.md R217) -/
  eaeVector : Nat
  /-- configured, never requested (R217) -/
  eaeLevel : Nat
  /-- is the serial controller enabled (R57) -/
  serEnabled : Bool
  serBase : Nat
  /-- the number of registers of the serial controller that have an address (R41, R50; log 2) -/
  serRegs : Nat
  serVector : Nat
  serLevel : Nat
  serSlot : Nat
  /-- how many bits a bus byte address has (R50; log 2) -/
  busAddrWidth : Nat
  srLayout : SrLayout
  norSpecialAc : Word
  serRegmap : SerRegmap
  ssrStorageIntBit : Fin 16
  scrRxIntEnableBit : Fin 16
  scrSIntEnableBit : Fin 16
  serWritable : Vector Word 8
  emptyReadPolicy : EmptyReadPolicy
  deriving DecidableEq, Repr

namespace Config

/-- The bus can carry this address (BUS_ADDR_WIDTH; R6, R50). -/
def onBus (c : Config) (a : Nat) : Bool := decide (a < 2 ^ c.busAddrWidth)

/-- The window of the EAE: two bytes for each register (20_memory.md R50). -/
def eaeWindow (c : Config) : Window := ⟨c.eaeBase, 2 * c.eaeRegs⟩

/-- The window of the serial controller (R50). -/
def serWindow (c : Config) : Window := ⟨c.serBase, 2 * c.serRegs⟩

/-- The windows of the two stub devices "the block must not overlap" (60_exceptions.md R224): the vector display at 0o764040 with 2
registers, the raster display at 0o764100 with 26. -/
def stubWindows : List Window := [⟨0o764040, 2 * 2⟩, ⟨0o764100, 2 * 26⟩]

/-- Where a window may stand: at an even base and inside the address space (20_memory.md R50, R55). -/
def placed (c : Config) (w : Window) : Bool :=
  decide (w.base % 2 = 0) && decide (w.base + w.bytes ≤ 2 ^ c.busAddrWidth)

/-- SR_LAYOUT is a bijection from the eight flags to the eight bits of the SR byte (R29). -/
def layoutValid (l : SrLayout) : Bool :=
  decide ([l.n, l.nxv, l.c, l.mqz, l.acz, l.acm1, l.sxt, l.z].Nodup)

/-- Each named serial register has an index of its own (R41). -/
def regmapValid (m : SerRegmap) : Bool :=
  decide ([m.scr, m.deq, m.lpr, m.car, m.bcr, m.bar, m.brcr, m.ssr].Nodup)

/-- What the spec requires of a configuration: R29 and R41 (bijections), R38 and 92 D16 (STORAGE_INT at 6, 7, 14 or 15, the two
enables distinct), 92 D6 (NOR_SPECIAL_AC is 0x6000 or 0xC000), R20 and R41 (no more than the eight registers there are), R50 and
R55 (windows word-aligned and inside the address space), R57 (two enabled devices never overlap), R224 (no enabled device overlaps
a stub device). -/
def valid (c : Config) : Bool :=
  layoutValid c.srLayout && regmapValid c.serRegmap
    && decide (c.ssrStorageIntBit ∈ [6, 7, 14, 15])
    && decide (c.scrRxIntEnableBit ≠ c.scrSIntEnableBit)
    && decide (c.norSpecialAc = 0x6000 ∨ c.norSpecialAc = 0xC000)
    && decide (c.eaeRegs ≤ 8) && decide (c.serRegs ≤ 8)
    && c.placed c.eaeWindow && c.placed c.serWindow
    && !(c.eaeEnabled && c.serEnabled && c.eaeWindow.meets c.serWindow)
    && !(c.eaeEnabled && stubWindows.any c.eaeWindow.meets)
    && !(c.serEnabled && stubWindows.any c.serWindow.meets)

end Config

/-- FREE VALUE (log 7): bits 14..0 of the n-th empty read under EMPTY_READ_POLICY = any, "drawn fresh for every read"
(44_silo.md R187, 93_implementation_defined.md U5). No body: nothing can be proved of a value of it. -/
opaque Config.freeEmptyRead : Nat → BitVec 15

end Sys2Proof
end

