-- ==== Sys2Proof/Machine/Defaults.lean ====
section
/-! DEFINITION. The value this hardware takes for each configuration parameter: the table of 00_scope.md R6. The OPEN rows are the
spec's own defaults (log 3 to log 7). -/

namespace Sys2Proof.Machine

/-- The default SR_LAYOUT (R6, R29): C 0, SXT 1, Z 2, MQZ 3, ACZ 4, ACM1 5, N 6, NXV 7. PRESUMED (log 3). -/
def defaultSrLayout : SrLayout :=
  { c := 0, sxt := 1, z := 2, mqz := 3, acz := 4, acm1 := 5, n := 6, nxv := 7 }

/-- The default SER_REGMAP (R6, R41). PRESUMED (log 4). -/
def defaultSerRegmap : SerRegmap :=
  { scr := 0, deq := 1, lpr := 2, car := 3, bcr := 4, bar := 5, brcr := 6, ssr := 7 }

/-- The default SER_WRITABLE (R6): 0x003F for SSR, 0 for DEQ, 0xFFFF elsewhere. -/
def defaultSerWritable : Vector Word 8 :=
  #v[0xFFFF, 0x0000, 0xFFFF, 0xFFFF, 0xFFFF, 0xFFFF, 0xFFFF, 0x003F]

/-- The configuration of R6 with every default. -/
def defaultConfig : Config where
  eaeEnabled := true
  eaeBase := 0o777300
  eaeRegs := 8
  eaeVector := 0o010
  eaeLevel := 5
  serEnabled := true
  serBase := 0o760020
  serRegs := 8
  serVector := 0o340
  serLevel := 5
  serSlot := 31
  busAddrWidth := 18
  srLayout := defaultSrLayout
  norSpecialAc := 0x6000
  serRegmap := defaultSerRegmap
  ssrStorageIntBit := 14
  scrRxIntEnableBit := 6
  scrSIntEnableBit := 12
  serWritable := defaultSerWritable
  emptyReadPolicy := .stale

end Sys2Proof.Machine
end

