-- ==== Sys2Proof/Machine/State.lean ====
section
/-! DEFINITION. The state of the block as plain data (10_state.md), the events still to be delivered to it, the state after
reset, and the two ways a step can stop. -/

namespace Sys2Proof.Machine

/-- SR: the eight flags (10_state.md R26). N, NXV and C are kept; the other five are recomputed by every operation. -/
structure Sr where
  n : Bool
  nxv : Bool
  c : Bool
  mqz : Bool
  acz : Bool
  acm1 : Bool
  sxt : Bool
  z : Bool
  deriving DecidableEq, Repr

/-- The two kinds of interrupt request the silo makes (44_silo.md R192). -/
inductive IrqKind where
  | storage
  | alarm
  deriving DecidableEq, Repr

/-- One `request_irq` event as the model records it: `(kind, vector, level, slot)` (60_exceptions.md R215). -/
structure IrqRequest where
  kind : IrqKind
  vector : Nat
  level : Nat
  slot : Nat
  deriving DecidableEq, Repr

/-- What a delivered event returns (30_encoding.md R72). -/
inductive Reply where
  /-- a DATI or a dequeue returns a word -/
  | word (w : Word)
  /-- an enqueue returns whether the character was stored -/
  | accepted (b : Bool)
  deriving DecidableEq, Repr

/-- A cycle of the bus master at a bus address (20_memory.md R51 to R55). For a byte write the data word holds the byte in the
lane the address selects (30_encoding.md R72). -/
inductive BusCycle where
  /-- a DATI: a word read -/
  | dati
  /-- a byte read by the host, delivered as the word DATI of its register (R54, 93 U3) -/
  | datiByte
  /-- a word DATO -/
  | datoWord (data : Word)
  /-- a byte DATO -/
  | datoByte (data : Word)
  deriving DecidableEq, Repr

/-- One thing the outside world does (60_exceptions.md R213, R214). -/
inductive Input where
  /-- an event delivered to the block, as its descriptor and operands (30_encoding.md R70, R72); it takes effect whether or not its
  device is enabled (log 41) -/
  | event (desc : Desc) (operands : EventOperands)
  /-- a bus cycle at an address, still to be decoded by address (20_memory.md R51) -/
  | cycle (addr : Nat) (c : BusCycle)
  /-- the adapter removes an entry of its pending set, "a host move at any time" (R215) -/
  | irqRemoved (level slot : Nat)
  deriving DecidableEq, Repr

/-- The state. -/
structure State where
  /-- the configuration, fixed during a run (00_scope.md R6, 20_memory.md R68; log 1) -/
  cfg : Config
  /-- the accumulator, the high half of D (10_state.md R21) -/
  ac : Word
  /-- the multiplier/quotient, the low half of D (R22) -/
  mq : Word
  /-- the shift counter, 0..63 (R25) -/
  sc : BitVec 6
  /-- the status register as stored (R26) -/
  sr : Sr
  /-- the EAE's read latches: what a DATI returns (R31, R33) -/
  eaeRL : EaeLatches
  /-- the EAE's write latches: what the bus last wrote (R31, R32) -/
  eaeWL : EaeLatches
  /-- the serial controller's read latches; SSR and SCR are two of them (R38, R39, R41) -/
  serRL : Vector Word 8
  /-- the serial controller's write latches (R41) -/
  serWL : Vector Word 8
  /-- the silo, entry 0 the oldest (R35) -/
  silo : Vector Word 64
  /-- the number of valid entries, 0..64 (R36) -/
  count : Nat
  /-- the per-line LPR mirror (R40) -/
  lprLine : Vector Word 16
  /-- the per-line CAR mirror (R40) -/
  carLine : Vector Word 16
  /-- the per-line BCR mirror (R40) -/
  bcrLine : Vector Word 16
  /-- INIT has been asserted and not yet deasserted (70_reset_and_hazards.md R244) -/
  initAsserted : Bool
  /-- the log of interrupt requests, oldest first (60_exceptions.md R214, R215); empty at the start of a run (log 40) -/
  irqLog : List IrqRequest
  /-- the adapter's pending set of `(level, slot)` (R215); empty at the start of a run, a DESIGN CHOICE (log 40) -/
  pending : List (Nat × Nat)
  /-- MODEL: what the last delivered event returned (log 13) -/
  reply : Option Reply
  /-- MODEL: the events still to be delivered, in the order they take effect (log 11, log 12) -/
  inputs : List Input
  /-- MODEL: how many free values have been drawn (log 8) -/
  draws : Nat
  deriving DecidableEq, Repr

/-- "No step of the block faults: every admitted event has a defined result" (60_exceptions.md R212), so there is no fault. -/
inductive Fault where
  deriving DecidableEq, Repr

/-- What the model refuses (60_exceptions.md R212). Every refusal is safe: it "errs toward unprovable". -/
inductive Refusal where
  /-- an operation without a meaning yet; raised by no arm of `exec` (safe) -/
  | notModelled (mnemonic : String)
  /-- a descriptor outside the 70 legal values (30_encoding.md R77); raised where an event is delivered (safe) -/
  | reservedDescriptor (why : Reserved)
  /-- a word DATI or word DATO at an odd bus address in a window (20_memory.md R55); raised by the address decode (safe) -/
  | oddWordCycle
  /-- a bus cycle or receive-port event while INIT is asserted (70_reset_and_hazards.md R244); raised by `unlessInit` (safe) -/
  | cycleDuringInit
  deriving DecidableEq, Repr

/-- The initial state of a run: right after a DCLO rising reset from power-off (R245, 10_state.md R43), for a configuration and
for the contents of the three arrays the spec leaves unspecified, "inputs drawn once at the start". The spec gives no value for the adapter's pending set at the start of a run (R43, R215
and R245 list none): it starts empty, and with it the log of requests, DESIGN CHOICE (log 40). -/
def State.powerOn (cfg : Config) (silo : Vector Word 64) (carLine bcrLine : Vector Word 16) : State where
  cfg := cfg
  ac := 0
  mq := 0
  sc := 0
  sr := ⟨false, false, false, false, false, false, false, false⟩
  eaeRL := .fill 0
  eaeWL := .fill 0
  serRL := Vector.replicate 8 0
  serWL := Vector.replicate 8 0
  silo := silo
  count := 0
  lprLine := Vector.replicate 16 0
  carLine := carLine
  bcrLine := bcrLine
  initAsserted := false
  irqLog := []
  pending := []
  reply := none
  inputs := []
  draws := 0

/-- The machine right after reset (R43, R245), with the default configuration (R6) and, where the spec leaves the contents
unspecified, zero: DESIGN CHOICE (log 9, log 10). Statements about the initial state are made of `State.powerOn`. -/
def State.reset : State :=
  State.powerOn defaultConfig (Vector.replicate 64 0) (Vector.replicate 16 0) (Vector.replicate 16 0)

end Sys2Proof.Machine
end

