-- ==== Sys2Proof/Machine/Flags.lean ====
section
/-! DEFINITION. The status register: `set_SR` (41_eae_mul_div.md R121), the N, NXV and C discipline (R124), the SR byte under
SR_LAYOUT and the SCSR word (10_state.md R29, R30), and the flags an SCSR write loads (43_eae_register_access.md R162). -/

namespace Sys2Proof.Machine

/-- `set_SR(ac, mq, sr)`: recompute MQZ, ACZ, ACM1, SXT and Z from AC and MQ; keep N, NXV and C (R121). -/
def setSr (ac mq : Word) (sr : Sr) : Sr :=
  let sr := { sr with mqz := false, acz := false, acm1 := false, sxt := false, z := false }
  let sr := if mq = 0 then { sr with mqz := true } else sr
  let sr := if ac = 0 then { sr with acz := true, sxt := !signWord mq, z := decide (mq = 0) } else sr
  if ac = 0xFFFF then { sr with acm1 := true, sxt := signWord mq } else sr

/-- A flag at its bit of the SR byte (R29). -/
def srBit (b : Bool) (pos : Fin 8) : BitVec 8 := if b then 1#8 <<< pos.val else 0

/-- The SR byte under a layout (R29). -/
def srByte (l : SrLayout) (sr : Sr) : BitVec 8 :=
  srBit sr.n l.n ||| srBit sr.nxv l.nxv ||| srBit sr.c l.c ||| srBit sr.mqz l.mqz ||| srBit sr.acz l.acz
    ||| srBit sr.acm1 l.acm1 ||| srBit sr.sxt l.sxt ||| srBit sr.z l.z

/-- `SR_byte << 8 | zext_8(SC)` (R30). -/
def scsrWord (l : SrLayout) (sr : Sr) (sc : BitVec 6) : Word := srByte l sr ++ sc.setWidth 8

/-- N, NXV and C from an SCSR word write's data: bit 8 + the flag's position; the data's other flag bits are discarded
(R162). -/
def loadFlags (l : SrLayout) (v : Word) (sr : Sr) : Sr :=
  { sr with
    n := v.getLsbD (8 + l.n.val)
    nxv := v.getLsbD (8 + l.nxv.val)
    c := v.getLsbD (8 + l.c.val) }

end Sys2Proof.Machine
end

