-- ==== Sys2Proof/Machine/Operands.lean ====
section
/-! DEFINITION. Operand assembly: the lane merge of a bus write (40_bus_interface.md R102), the operand of an EAE write (R104,
30_encoding.md R73), the shift code (42_eae_shift_normalize.md R142), and the fields of an enqueue (44_silo.md R183). -/

namespace Sys2Proof.Machine

/-- `mask(access)` (R102). -/
def laneMask : Access → Word
  | .word => 0xFFFF
  | .bytel => 0x00FF
  | .byteh => 0xFF00

/-- The merge of R102: the bits of `m` from the new value, the others from the old one. -/
def mergeLanes (old v m : Word) : Word := (old &&& ~~~m) ||| (v &&& m)

/-- The writable bits of an EAE cell (00_scope.md R7): NOR's are 0. -/
def eaeWritable : EaeReg → Word
  | .nor => 0x0000
  | .div | .ac | .mq | .mul | .scsr | .lsh | .ash => 0xFFFF

/-- The operand of an EAE write from the merged write latch: a low byte with bit 7 set is sign-extended (R104). -/
def operandOf (acc : Access) (latch : Word) : Word :=
  if acc = .bytel ∧ signByte latch = true then latch ||| 0xFF00 else latch

/-- The shift code `n = v[5:0]`, 0..63 (R142). -/
def shiftCode (v : Word) : Nat := (v.extractLsb' 0 6).toNat

/-- The new SC of an SCSR word write: `v[5:0]` (43_eae_register_access.md R162). -/
def scsrCount (v : Word) : BitVec 6 := v.extractLsb' 0 6

/-- One flag bit of a silo entry. -/
def flagBit (b : Bool) (m : Word) : Word := if b then m else 0

/-- The stored entry of a received character (44_silo.md R183). -/
def siloEntry (char line : Word) (parityErr framingErr overrun : Bool) : Word :=
  (char &&& 0x00FF) ||| ((line &&& 0x000F) <<< 8) ||| flagBit parityErr 0x1000 ||| flagBit framingErr 0x2000
    ||| flagBit overrun 0x4000 ||| 0x8000

end Sys2Proof.Machine
end

