-- ==== Sys2Proof/Machine/Ops.lean ====
section
/-! DEFINITION. The named operations every meaning is written with: register cells (40_bus_interface.md R100 to R104), dispatch
(R106), commit (41_eae_mul_div.md R120), the refusal of an event during INIT (70_reset_and_hazards.md R244), the one interrupt
request (60_exceptions.md R215) and the one reset (R240, R243).

The block takes no exception and has no return from one (R210, R219, R220): `requestIrq` is all that stands in that place. -/

namespace Sys2Proof.Machine

/-- The outcome of a step or of a meaning. -/
abbrev Result := Host.Outcome State Fault Refusal

/-! ## Updates -/

/-- `device_write` of an EAE cell: the read latch, unconditionally (R100). -/
def State.deviceWrite (s : State) (r : EaeReg) (v : Word) : State := { s with eaeRL := s.eaeRL.set r v }

/-- `bus_write` of an EAE cell: the written lanes that are writable, into the write latch (R102). -/
def State.busWrite (s : State) (r : EaeReg) (v : Word) (acc : Access) : State :=
  { s with eaeWL := s.eaeWL.set r (mergeLanes (s.eaeWL.get r) v (eaeWritable r &&& laneMask acc)) }

/-- `device_write` of a serial cell (R100). -/
def State.serDeviceWrite (s : State) (i : Fin 8) (v : Word) : State :=
  { s with serRL := s.serRL.set i.val v i.isLt }

/-- `bus_write` of a serial cell (R102). -/
def State.serBusWrite (s : State) (i : Fin 8) (v : Word) (m : Word) : State :=
  { s with serWL := s.serWL.set i.val (mergeLanes s.serWL[i.val] v m) i.isLt }

/-- What the event returned to its agent (R72). -/
def State.withReply (s : State) (r : Option Reply) : State := { s with reply := r }

/-- SSR is the read latch of its cell (10_state.md R38). -/
def State.ssr (s : State) : Word := s.serRL[s.cfg.serRegmap.ssr.val]

/-- SCR is the read latch of its cell (R39). -/
def State.scr (s : State) : Word := s.serRL[s.cfg.serRegmap.scr.val]

/-- SSR with a new value. -/
def State.withSsr (s : State) (v : Word) : State := s.serDeviceWrite s.cfg.serRegmap.ssr v

/-! ## EAE results and commit -/

/-- What an EAE operation computes: AC, MQ, SC and the three flags it sets itself (R124). -/
structure EaeResult where
  ac : Word
  mq : Word
  sc : BitVec 6
  n : Bool
  nxv : Bool
  c : Bool
  deriving DecidableEq, Repr

/-- `commit()`: recompute SR and publish AC, MQ, SCSR and NOR to the read latches (R120). -/
def commit (s : State) : State :=
  let s := { s with sr := setSr s.ac s.mq s.sr }
  (((s.deviceWrite .ac s.ac).deviceWrite .mq s.mq).deviceWrite .scsr (scsrWord s.cfg.srLayout s.sr s.sc)).deviceWrite
    .nor (s.sc.setWidth 16)

/-- An operation's results stored, then committed, all at once (R59, R120). -/
def publish (r : EaeResult) (s : State) : State :=
  commit { s with ac := r.ac, mq := r.mq, sc := r.sc, sr := { s.sr with n := r.n, nxv := r.nxv, c := r.c } }

/-! ## Dispatch -/

/-- Between INIT asserted and INIT deasserted no bus cycle and no receive-port event is admitted (R244). -/
def unlessInit (s : State) (t : State) : Result := if s.initAsserted then .refused .cycleDuringInit else .next t

/-- Every EAE cell is active on write (R109). -/
def eaeActiveOnWrite : EaeReg → Bool
  | .div | .ac | .mq | .mul | .scsr | .nor | .lsh | .ash => true

/-- AC and MQ are passive on read (R109). -/
def eaeActiveOnRead : EaeReg → Bool
  | .ac | .mq => false
  | .div | .mul | .scsr | .nor | .lsh | .ash => true

/-- Dispatch of a DATO to an EAE register: `bus_write`, then the register's operation on its operand (R106, R104). A DATO returns
nothing (R72). -/
def eaeDato (r : EaeReg) (acc : Access) (data : Word) (op : Word → State → State) (s : State) : State :=
  let s := s.busWrite r data acc
  (if eaeActiveOnWrite r then op (operandOf acc (s.eaeWL.get r)) s else s).withReply none

/-- Dispatch of a DATI of an EAE register: the read routine of an active cell, then the read latch is returned (R106). -/
def eaeDati (r : EaeReg) (routine : State → State) (s : State) : State :=
  let s := if eaeActiveOnRead r then routine s else s
  s.withReply (some (.word (s.eaeRL.get r)))

/-! ## Interrupt request and reset -/

/-- `request_irq(kind)`: the request is recorded, and its `(level, slot)` joins the pending set, once (R192, R215). -/
def requestIrq (kind : IrqKind) (s : State) : State :=
  { s with
    irqLog := s.irqLog ++ [⟨kind, s.cfg.serVector, s.cfg.serLevel, s.cfg.serSlot⟩]
    pending := s.pending.insert (s.cfg.serLevel, s.cfg.serSlot) }

/-- The reset of both devices (R240, R241, R243, 10_state.md R43): every latch and every EAE register 0, `count` 0, the LPR
mirrors 0; the silo array, the CAR and BCR mirrors, the request log and the pending set unchanged. -/
def resetBlock (s : State) : State :=
  { s with
    ac := 0
    mq := 0
    sc := 0
    sr := ⟨false, false, false, false, false, false, false, false⟩
    eaeRL := .fill 0
    eaeWL := .fill 0
    serRL := Vector.replicate 8 0
    serWL := Vector.replicate 8 0
    count := 0
    lprLine := Vector.replicate 16 0 }

end Sys2Proof.Machine
end

