-- ==== Sys2Proof/Machine/EaeAccess.lean ====
section
/-! DEFINITION. The loading writes to AC, MQ and SCSR and the reads of the three (43_eae_register_access.md R160 to R167). -/

namespace Sys2Proof.Machine

/-- The operation a write to AC starts: load AC; N, NXV, C and SC are unchanged (R160). -/
def opAc (v : Word) (s : State) : State := commit { s with ac := v }

/-- The operation a write to MQ starts: load MQ and sign-extend it into AC (R161). -/
def opMq (v : Word) (s : State) : State := commit { s with mq := v, ac := if signWord v then 0xFFFF else 0 }

/-- The operation a word write to SCSR starts: load N, NXV, C and SC (R162). -/
def opScsr (v : Word) (s : State) : State :=
  commit { s with sr := loadFlags s.cfg.srLayout v s.sr, sc := scsrCount v }

/-- A byte write to SCSR starts no operation (R163). -/
def opScsrByte (_v : Word) (s : State) : State := s

/-- The read routine of SCSR: recompute SR and publish the status word (R167). -/
def readScsr (s : State) : State :=
  let s := { s with sr := setSr s.ac s.mq s.sr }
  s.deviceWrite .scsr (scsrWord s.cfg.srLayout s.sr s.sc)

/-- DATO.W AC (R160). -/
def execDatoWAc (data : Word) (s : State) : Result := unlessInit s (eaeDato .ac .word data opAc s)

/-- DATO.BL AC (R160). -/
def execDatoBLAc (data : Word) (s : State) : Result := unlessInit s (eaeDato .ac .bytel data opAc s)

/-- DATO.BH AC (R160). -/
def execDatoBHAc (data : Word) (s : State) : Result := unlessInit s (eaeDato .ac .byteh data opAc s)

/-- DATO.W MQ (R161). -/
def execDatoWMq (data : Word) (s : State) : Result := unlessInit s (eaeDato .mq .word data opMq s)

/-- DATO.BL MQ (R161). -/
def execDatoBLMq (data : Word) (s : State) : Result := unlessInit s (eaeDato .mq .bytel data opMq s)

/-- DATO.BH MQ (R161). -/
def execDatoBHMq (data : Word) (s : State) : Result := unlessInit s (eaeDato .mq .byteh data opMq s)

/-- DATO.W SCSR (R162). -/
def execDatoWScsr (data : Word) (s : State) : Result := unlessInit s (eaeDato .scsr .word data opScsr s)

/-- DATO.BL SCSR is ignored but for the write latch (R163). -/
def execDatoBLScsr (data : Word) (s : State) : Result := unlessInit s (eaeDato .scsr .bytel data opScsrByte s)

/-- DATO.BH SCSR is ignored but for the write latch (R163). -/
def execDatoBHScsr (data : Word) (s : State) : Result := unlessInit s (eaeDato .scsr .byteh data opScsrByte s)

/-- DATI AC returns the accumulator (R165). -/
def execDatiAc (s : State) : Result := unlessInit s (eaeDati .ac id s)

/-- DATI MQ returns the multiplier/quotient (R166). -/
def execDatiMq (s : State) : Result := unlessInit s (eaeDati .mq id s)

/-- DATI SCSR recomputes the dynamic flags and returns the status word (R167). -/
def execDatiScsr (s : State) : Result := unlessInit s (eaeDati .scsr readScsr s)

end Sys2Proof.Machine
end

