-- ==== Sys2Proof/Machine/MulDiv.lean ====
section
/-! DEFINITION. DIV and MUL: the writes of 41_eae_mul_div.md R130 to R134 and the reads of 43_eae_register_access.md R168, R169. -/

namespace Sys2Proof.Machine

/-- MUL: the signed product of MQ and the operand (R130). -/
def mulResult (mq v : Word) : EaeResult :=
  let t := u32 (mq.toInt * v.toInt)
  let ac := hiWord t
  { ac := ac, mq := loWord t, sc := 0, n := signWord ac, nxv := signWord ac, c := false }

/-- The quotient cannot fit: `floor(|t| / 2^16) >= |d|` (R131). -/
def divFails (ac mq v : Word) : Bool :=
  decide ((joinD ac mq).toInt.natAbs / 2 ^ 16 ≥ v.toInt.natAbs)

/-- DIV_FAIL (R132), before the end toggle: one non-restoring divide step. -/
def divFail (ac mq v : Word) : EaeResult :=
  let sign := !(signWord ac ^^ signWord v)
  let a := (ac <<< 1) ||| (if signWord mq then 1 else 0)
  let a := if sign then a - v else a + v
  { ac := a
    mq := (mq <<< 1) ||| (if sign then 1 else 0)
    sc := 15
    n := false
    nxv := true
    c := !(signWord a ^^ signWord v) }

/-- DIV_NORMAL (R133), before the end toggle. -/
def divNormal (ac mq v : Word) : EaeResult :=
  let t := (joinD ac mq).toInt
  let d := v.toInt
  let q := tdiv t d
  { ac := u16 (trem t d)
    mq := u16 q
    sc := 0
    n := false
    nxv := decide (q > 32767 ∨ q < -32768)
    c := false }

/-- The end toggle: if the result word is negative, N and NXV are complemented (R124, R134). -/
def endToggle (negative : Bool) (r : EaeResult) : EaeResult :=
  { r with n := r.n ^^ negative, nxv := r.nxv ^^ negative }

/-- DIV (R131): the fail path or the normal path, then the end toggle on the new MQ. -/
def divResult (ac mq v : Word) : EaeResult :=
  let r := if divFails ac mq v then divFail ac mq v else divNormal ac mq v
  endToggle (signWord r.mq) r

/-- The operation a write to DIV starts. -/
def opDiv (v : Word) (s : State) : State := publish (divResult s.ac s.mq v) s

/-- The operation a write to MUL starts. -/
def opMul (v : Word) (s : State) : State := publish (mulResult s.mq v) s

/-- DATO.W DIV (R131). -/
def execDatoWDiv (data : Word) (s : State) : Result := unlessInit s (eaeDato .div .word data opDiv s)

/-- DATO.BL DIV (R131). -/
def execDatoBLDiv (data : Word) (s : State) : Result := unlessInit s (eaeDato .div .bytel data opDiv s)

/-- DATO.BH DIV (R131). -/
def execDatoBHDiv (data : Word) (s : State) : Result := unlessInit s (eaeDato .div .byteh data opDiv s)

/-- DATO.W MUL (R130). -/
def execDatoWMul (data : Word) (s : State) : Result := unlessInit s (eaeDato .mul .word data opMul s)

/-- DATO.BL MUL (R130). -/
def execDatoBLMul (data : Word) (s : State) : Result := unlessInit s (eaeDato .mul .bytel data opMul s)

/-- DATO.BH MUL (R130). -/
def execDatoBHMul (data : Word) (s : State) : Result := unlessInit s (eaeDato .mul .byteh data opMul s)

/-- DATI DIV returns the read latch, which no operation writes (R168). -/
def execDatiDiv (s : State) : Result := unlessInit s (eaeDati .div id s)

/-- DATI MUL returns the read latch, which no operation writes (R169). -/
def execDatiMul (s : State) : Result := unlessInit s (eaeDati .mul id s)

end Sys2Proof.Machine
end

