-- ==== Sys2Proof/Machine/ShiftNormalize.lean ====
section
/-! DEFINITION. NOR, LSH and ASH: the writes of 42_eae_shift_normalize.md R140, R143, R149 and the reads of
43_eae_register_access.md R164, R170, R171. -/

namespace Sys2Proof.Machine

/-- The loop of NOR (R140): shift until `a = special` with `m = 0`, or bits 15 and 14 of `a` differ, at most `fuel` times;
answers `a`, `m` and the number of shifts done, starting from `k`. -/
def norLoop (special : Word) : Nat → Word → Word → Nat → Word × Word × Nat
  | 0, a, m, k => (a, m, k)
  | fuel + 1, a, m, k =>
    if (a = special ∧ m = 0) ∨ a.getLsbD 15 ≠ a.getLsbD 14 then (a, m, k)
    else norLoop special fuel ((a <<< 1) ||| (if signWord m then 1 else 0)) (m <<< 1) (k + 1)

/-- NOR (R140): at most 31 shifts, counted in SC. -/
def norResult (special ac mq : Word) : EaeResult :=
  let (a, m, k) := norLoop special 31 ac mq 0
  { ac := a, mq := m, sc := BitVec.ofNat 6 k, n := signWord a, nxv := signWord a, c := false }

/-- The result of a shift before the end toggle: the new D, V and C (R143, R149). -/
structure ShiftResult where
  d : Long
  v : Bool
  c : Bool
  deriving DecidableEq, Repr

/-- LSH of D by the shift code n (R143): none, left by n, or right by 64 - n. -/
def lshShift (d : Long) (n : Nat) : ShiftResult :=
  if n = 0 then { d := d, v := false, c := false }
  else if n < 32 then
    let sout := asr32 d (32 - n) ||| shl32 (negBit (signLong d)) n
    let t := shl32 d n
    { d := t, v := decide (sout ≠ negBit (signLong t)), c := sout.getLsbD 0 }
  else
    { d := if n = 32 then 0 else lsr32 d (64 - n), v := false, c := (asr32 d (63 - n)).getLsbD 0 }

/-- ASH of D by the shift code n (R149): the sign is kept on a left shift and copied in on a right shift. -/
def ashShift (d : Long) (n : Nat) : ShiftResult :=
  if n = 0 then { d := d, v := false, c := false }
  else if n < 32 then
    let sout := asr32 d (31 - n) ||| shl32 (negBit (signLong d)) n
    let t := (d &&& 0x80000000) ||| (shl32 d n &&& 0x7FFFFFFF)
    { d := t, v := decide (sout ≠ negBit (signLong t)), c := sout.getLsbD 0 }
  else
    { d := if n = 32 then negBit (signLong d) else lsr32 d (64 - n) ||| shl32 (negBit (signLong d)) (n - 32)
      v := false
      c := (asr32 d (63 - n)).getLsbD 0 }

/-- The end of LSH and ASH: N and NXV from zero, V and the sign of the new AC, and SC cleared (R124, R143, R149). -/
def shiftEnd (r : ShiftResult) : EaeResult :=
  endToggle (signWord (hiWord r.d)) { ac := hiWord r.d, mq := loWord r.d, sc := 0, n := false, nxv := r.v, c := r.c }

/-- The operation a write to NOR starts; the operand is not used (R140). -/
def opNor (_v : Word) (s : State) : State := publish (norResult s.cfg.norSpecialAc s.ac s.mq) s

/-- The operation a write to LSH starts (R143). -/
def opLsh (v : Word) (s : State) : State := publish (shiftEnd (lshShift (joinD s.ac s.mq) (shiftCode v))) s

/-- The operation a write to ASH starts (R149). -/
def opAsh (v : Word) (s : State) : State := publish (shiftEnd (ashShift (joinD s.ac s.mq) (shiftCode v))) s

/-- The read routine of NOR: publish SC (R164). -/
def readNor (s : State) : State := s.deviceWrite .nor (s.sc.setWidth 16)

/-- DATO.W NOR (R140). -/
def execDatoWNor (data : Word) (s : State) : Result := unlessInit s (eaeDato .nor .word data opNor s)

/-- DATO.BL NOR (R140). -/
def execDatoBLNor (data : Word) (s : State) : Result := unlessInit s (eaeDato .nor .bytel data opNor s)

/-- DATO.BH NOR (R140). -/
def execDatoBHNor (data : Word) (s : State) : Result := unlessInit s (eaeDato .nor .byteh data opNor s)

/-- DATO.W LSH (R143). -/
def execDatoWLsh (data : Word) (s : State) : Result := unlessInit s (eaeDato .lsh .word data opLsh s)

/-- DATO.BL LSH (R143). -/
def execDatoBLLsh (data : Word) (s : State) : Result := unlessInit s (eaeDato .lsh .bytel data opLsh s)

/-- DATO.BH LSH (R143). -/
def execDatoBHLsh (data : Word) (s : State) : Result := unlessInit s (eaeDato .lsh .byteh data opLsh s)

/-- DATO.W ASH (R149). -/
def execDatoWAsh (data : Word) (s : State) : Result := unlessInit s (eaeDato .ash .word data opAsh s)

/-- DATO.BL ASH (R149). -/
def execDatoBLAsh (data : Word) (s : State) : Result := unlessInit s (eaeDato .ash .bytel data opAsh s)

/-- DATO.BH ASH (R149). -/
def execDatoBHAsh (data : Word) (s : State) : Result := unlessInit s (eaeDato .ash .byteh data opAsh s)

/-- DATI NOR returns SC (R164). -/
def execDatiNor (s : State) : Result := unlessInit s (eaeDati .nor readNor s)

/-- DATI LSH returns the read latch, which no operation writes (R170). -/
def execDatiLsh (s : State) : Result := unlessInit s (eaeDati .lsh id s)

/-- DATI ASH returns the read latch, which no operation writes (R171). -/
def execDatiAsh (s : State) : Result := unlessInit s (eaeDati .ash id s)

end Sys2Proof.Machine
end

