-- ==== Sys2Proof/Machine/Signals.lean ====
section
/-! DEFINITION. The bus signals (70_reset_and_hazards.md R240 to R244). A signal returns nothing (30_encoding.md R72) and is
admitted at any time, also while INIT is asserted (R244). -/

namespace Sys2Proof.Machine

/-- INIT asserted: reset, and the INIT interval opens (R240, R243, R244). -/
def execInit (s : State) : Result := .next ({ resetBlock s with initAsserted := true }.withReply none)

/-- DCLO rising edge: the same reset; it opens no INIT interval (R241). -/
def execDclo (s : State) : Result := .next ((resetBlock s).withReply none)

/-- ACLO edge: no effect on the block (R242). -/
def execAclo (s : State) : Result := .next (s.withReply none)

/-- INIT deasserted: the INIT interval closes; nothing else changes (R244). -/
def execInitOff (s : State) : Result := .next ({ s with initAsserted := false }.withReply none)

end Sys2Proof.Machine
end

