-- ==== Sys2Proof/Machine/Silo.lean ====
section
/-! DEFINITION. The receive silo and the serial controller's registers: enqueue (44_silo.md R182 to R185), dequeue (R186, R187),
serial DATI (R190) and serial DATO (R191). -/

namespace Sys2Proof.Machine

/-- SSR with its fill field, bits 13..8, rewritten from `count` (R184). -/
def withFill (ssr : Word) (count : Nat) : Word :=
  (ssr &&& ~~~(0x3F00 : Word)) ||| ((BitVec.ofNat 16 count &&& 0x003F) <<< 8)

/-- The alarm level, `SSR & 0x3F` (R185). -/
def alarmLevel (ssr : Word) : Nat := (ssr &&& 0x003F).toNat

/-- S_INT_ENABLE is set in SCR (10_state.md R39). -/
def storageEnabled (s : State) : Bool := s.scr.getLsbD s.cfg.scrSIntEnableBit.val

/-- RX_INT_ENABLE is set in SCR (R39). -/
def alarmEnabled (s : State) : Bool := s.scr.getLsbD s.cfg.scrRxIntEnableBit.val

/-- Enqueue on a full silo: the character is dropped, STORAGE_INT is set, and the storage interrupt is requested if enabled
(R182 step 1). -/
def dropChar (s : State) : State :=
  let s := s.withSsr (setBit s.ssr s.cfg.ssrStorageIntBit)
  (if storageEnabled s then requestIrq .storage s else s).withReply (some (.accepted false))

/-- Enqueue with room: store the entry, count it, rewrite the fill field, and request the alarm interrupt if the fill is above
the alarm level and the interrupt is enabled (R182 steps 2 to 5). -/
def storeChar (entry : Word) (s : State) : State :=
  let s := { s with silo := s.silo.setIfInBounds s.count entry, count := s.count + 1 }
  let s := s.withSsr (withFill s.ssr s.count)
  (if decide (s.count > alarmLevel s.ssr) && alarmEnabled s then requestIrq .alarm s else s).withReply
    (some (.accepted true))

/-- Enqueue (R182). -/
def enqueue (char line : Word) (parityErr framingErr overrun : Bool) (s : State) : State :=
  if s.count > 63 then dropChar s else storeChar (siloEntry char line parityErr framingErr overrun) s

/-- The array after one dequeue: the valid entries 1 .. count - 1 move down by one; every other slot keeps its content (R186,
90_conflicts.md C11). -/
def shiftDown (silo : Vector Word 64) (count : Nat) : Vector Word 64 :=
  Vector.ofFn fun i => if i.val + 1 < count then silo.getD (i.val + 1) silo[i.val] else silo[i.val]

/-- `empty_word()` (R187) and the state after it: under `stale` the low 15 bits of `silo[0]`, under `any` a fresh free value. -/
def emptyRead (s : State) : Word × State :=
  match s.cfg.emptyReadPolicy with
  | .stale => (s.silo[0] &&& 0x7FFF, s)
  | .any => ((Config.freeEmptyRead s.draws).setWidth 16, { s with draws := s.draws + 1 })

/-- Remove the oldest entry of a silo that holds one (R186). -/
def takeOldest (s : State) : Word × State :=
  let w := s.silo[0] ||| 0x8000
  let s := { s with silo := shiftDown s.silo s.count, count := s.count - 1 }
  (w, s.withSsr (withFill s.ssr s.count))

/-- Dequeue (R186): the word also goes to the dequeue register's read latch and is returned. -/
def dequeue (s : State) : State :=
  let p := if s.count = 0 then emptyRead s else takeOldest s
  (p.2.serDeviceWrite p.2.cfg.serRegmap.deq p.1).withReply (some (.word p.1))

/-- DATI of serial register i: the dequeue register is a dequeue (R186); any other returns its read latch and changes nothing
(R190). -/
def serDati (i : Fin 8) (s : State) : State :=
  if i = s.cfg.serRegmap.deq then dequeue s else s.withReply (some (.word s.serRL[i.val]))

/-- DATO of serial register i: merge the writable lanes into both latches, then, for SSR, put the fill field back (R191). -/
def serDato (i : Fin 8) (acc : Access) (data : Word) (s : State) : State :=
  let m := s.cfg.serWritable[i.val] &&& laneMask acc
  let v := mergeLanes s.serRL[i.val] data m
  let v := if i = s.cfg.serRegmap.ssr then withFill v s.count else v
  ((s.serBusWrite i data m).serDeviceWrite i v).withReply none

/-- ENQ (R182). -/
def execEnq (char line : Word) (parityErr framingErr overrun : Bool) (s : State) : Result :=
  unlessInit s (enqueue char line parityErr framingErr overrun s)

/-- DEQ, the port form of a dequeue (R186). -/
def execDeq (s : State) : Result := unlessInit s (dequeue s)

/-- DATI SER[0] (R190; R186 if it is the dequeue register). -/
def execDatiSer0 (s : State) : Result := unlessInit s (serDati 0 s)

/-- DATI SER[1] (R190; R186 if it is the dequeue register, as under the default map). -/
def execDatiSer1 (s : State) : Result := unlessInit s (serDati 1 s)

/-- DATI SER[2] (R190; R186 if it is the dequeue register). -/
def execDatiSer2 (s : State) : Result := unlessInit s (serDati 2 s)

/-- DATI SER[3] (R190; R186 if it is the dequeue register). -/
def execDatiSer3 (s : State) : Result := unlessInit s (serDati 3 s)

/-- DATI SER[4] (R190; R186 if it is the dequeue register). -/
def execDatiSer4 (s : State) : Result := unlessInit s (serDati 4 s)

/-- DATI SER[5] (R190; R186 if it is the dequeue register). -/
def execDatiSer5 (s : State) : Result := unlessInit s (serDati 5 s)

/-- DATI SER[6] (R190; R186 if it is the dequeue register). -/
def execDatiSer6 (s : State) : Result := unlessInit s (serDati 6 s)

/-- DATI SER[7] (R190; R186 if it is the dequeue register). -/
def execDatiSer7 (s : State) : Result := unlessInit s (serDati 7 s)

/-- DATO.W SER[idx] (R191). -/
def execDatoWSer (idx : BitVec 3) (data : Word) (s : State) : Result := unlessInit s (serDato idx.toFin .word data s)

/-- DATO.BL SER[idx] (R191). -/
def execDatoBLSer (idx : BitVec 3) (data : Word) (s : State) : Result := unlessInit s (serDato idx.toFin .bytel data s)

/-- DATO.BH SER[idx] (R191). -/
def execDatoBHSer (idx : BitVec 3) (data : Word) (s : State) : Result := unlessInit s (serDato idx.toFin .byteh data s)

end Sys2Proof.Machine
end

