-- ==== Sys2Proof/Machine/Dispatch.lean ====
section
/-! DEFINITION. The dispatch: one arm per operation, each one direct call of its meaning. -/

namespace Sys2Proof.Machine

def exec (i : Instr) (s : State) : Host.Outcome State Fault Refusal :=
  match i with
  | .datiDiv => Sys2Proof.Machine.execDatiDiv s
  | .datoWDiv data => Sys2Proof.Machine.execDatoWDiv data s
  | .datoBLDiv data => Sys2Proof.Machine.execDatoBLDiv data s
  | .datoBHDiv data => Sys2Proof.Machine.execDatoBHDiv data s
  | .datiAc => Sys2Proof.Machine.execDatiAc s
  | .datoWAc data => Sys2Proof.Machine.execDatoWAc data s
  | .datoBLAc data => Sys2Proof.Machine.execDatoBLAc data s
  | .datoBHAc data => Sys2Proof.Machine.execDatoBHAc data s
  | .datiMq => Sys2Proof.Machine.execDatiMq s
  | .datoWMq data => Sys2Proof.Machine.execDatoWMq data s
  | .datoBLMq data => Sys2Proof.Machine.execDatoBLMq data s
  | .datoBHMq data => Sys2Proof.Machine.execDatoBHMq data s
  | .datiMul => Sys2Proof.Machine.execDatiMul s
  | .datoWMul data => Sys2Proof.Machine.execDatoWMul data s
  | .datoBLMul data => Sys2Proof.Machine.execDatoBLMul data s
  | .datoBHMul data => Sys2Proof.Machine.execDatoBHMul data s
  | .datiScsr => Sys2Proof.Machine.execDatiScsr s
  | .datoWScsr data => Sys2Proof.Machine.execDatoWScsr data s
  | .datoBLScsr data => Sys2Proof.Machine.execDatoBLScsr data s
  | .datoBHScsr data => Sys2Proof.Machine.execDatoBHScsr data s
  | .datiNor => Sys2Proof.Machine.execDatiNor s
  | .datoWNor data => Sys2Proof.Machine.execDatoWNor data s
  | .datoBLNor data => Sys2Proof.Machine.execDatoBLNor data s
  | .datoBHNor data => Sys2Proof.Machine.execDatoBHNor data s
  | .datiLsh => Sys2Proof.Machine.execDatiLsh s
  | .datoWLsh data => Sys2Proof.Machine.execDatoWLsh data s
  | .datoBLLsh data => Sys2Proof.Machine.execDatoBLLsh data s
  | .datoBHLsh data => Sys2Proof.Machine.execDatoBHLsh data s
  | .datiAsh => Sys2Proof.Machine.execDatiAsh s
  | .datoWAsh data => Sys2Proof.Machine.execDatoWAsh data s
  | .datoBLAsh data => Sys2Proof.Machine.execDatoBLAsh data s
  | .datoBHAsh data => Sys2Proof.Machine.execDatoBHAsh data s
  | .datiSer0 => Sys2Proof.Machine.execDatiSer0 s
  | .datiSer1 => Sys2Proof.Machine.execDatiSer1 s
  | .datiSer2 => Sys2Proof.Machine.execDatiSer2 s
  | .datiSer3 => Sys2Proof.Machine.execDatiSer3 s
  | .datiSer4 => Sys2Proof.Machine.execDatiSer4 s
  | .datiSer5 => Sys2Proof.Machine.execDatiSer5 s
  | .datiSer6 => Sys2Proof.Machine.execDatiSer6 s
  | .datiSer7 => Sys2Proof.Machine.execDatiSer7 s
  | .datoWSer idx data => Sys2Proof.Machine.execDatoWSer idx data s
  | .datoBLSer idx data => Sys2Proof.Machine.execDatoBLSer idx data s
  | .datoBHSer idx data => Sys2Proof.Machine.execDatoBHSer idx data s
  | .enq char line parityErr framingErr overrun => Sys2Proof.Machine.execEnq char line parityErr framingErr overrun s
  | .deq => Sys2Proof.Machine.execDeq s
  | .init => Sys2Proof.Machine.execInit s
  | .dclo => Sys2Proof.Machine.execDclo s
  | .aclo => Sys2Proof.Machine.execAclo s
  | .initOff => Sys2Proof.Machine.execInitOff s

end Sys2Proof.Machine
end

