-- ==== Sys2Proof/Machine/Bus.lean ====
section
/-! DEFINITION. How an event reaches the block: the decode of a bus cycle by address (20_memory.md R51, R52, R54, R55, R57;
30_encoding.md R71) and the delivery of one input (60_exceptions.md R213, R214). -/

namespace Sys2Proof.Machine

/-- The register index of an address inside a window: `(A - base) >> 1` (R51). Of a window of more than eight registers, which
`Config.valid` refuses, it keeps the low three bits: DESIGN CHOICE (log 2). -/
def windowIndex (w : Window) (a : Nat) : Option (BitVec 3) :=
  if w.holds a then some (BitVec.ofNat 3 ((a - w.base) / 2)) else none

/-- The device and the register an address selects, if any: the serial window is `true` (R51). A device that is not enabled answers
no cycle (R57). An address the bus cannot carry selects nothing: DESIGN CHOICE (log 2). -/
def addressed (c : Config) (a : Nat) : Option (Bool × BitVec 3) :=
  match (if c.eaeEnabled && c.onBus a then windowIndex c.eaeWindow a else none) with
  | some i => some (false, i)
  | none => (if c.serEnabled && c.onBus a then windowIndex c.serWindow a else none).map (true, ·)

/-- The descriptor of a bus cycle from its fields (R70). -/
def cycleDesc (blk : Bool) (acc : Access) (ctl : Bool) (i : BitVec 3) : Desc :=
  let accBits : BitVec 2 := match acc with
    | .word => 0
    | .bytel => 1
    | .byteh => 2
  (0#2 ++ BitVec.ofBool blk ++ accBits ++ BitVec.ofBool ctl ++ i : BitVec (2 + 1 + 2 + 1 + 3)).cast rfl

/-- What becomes of a bus cycle. -/
inductive Routed where
  /-- no window holds the address: the block does not see the cycle (R51) -/
  | unseen
  /-- a word cycle at an odd address of a window: not delivered, and refused (R55) -/
  | odd
  /-- delivered, with this descriptor and data (R71) -/
  | delivered (desc : Desc) (operands : EventOperands)
  deriving DecidableEq, Repr

/-- Decode of a bus cycle by address (R51, R52, R54, R55, R71). -/
def routeCycle (c : Config) (a : Nat) (cy : BusCycle) : Routed :=
  match addressed c a with
  | none => .unseen
  | some (blk, i) =>
    match cy with
    | .dati => if a % 2 = 1 then .odd else .delivered (cycleDesc blk .word false i) .zero
    | .datiByte => .delivered (cycleDesc blk .word false i) .zero
    | .datoWord data => if a % 2 = 1 then .odd else .delivered (cycleDesc blk .word true i) (.ofData data)
    | .datoByte data =>
      .delivered (cycleDesc blk (if a % 2 = 1 then .byteh else .bytel) true i) (.ofData data)

/-- Run one delivered event: decode its descriptor, refuse a reserved one (R77), run the operation. -/
def runEvent (d : Desc) (o : EventOperands) (s : State) : Result :=
  match decode d o with
  | .ok i => exec i s
  | .error why => .refused (.reservedDescriptor why)

/-- Let one input take effect (R213 to R215). A bus cycle at an address reaches only an enabled device (R57). An event given
by its descriptor counts as delivered already: it runs whether or not its device is enabled, which the spec does not settle
(DESIGN CHOICE, log 41). -/
def deliver (inp : Input) (s : State) : Result :=
  match inp with
  | .event d o => runEvent d o s
  | .cycle a cy =>
    match routeCycle s.cfg a cy with
    | .unseen => .next s
    | .odd => .refused .oddWordCycle
    | .delivered d o => runEvent d o s
  | .irqRemoved level slot => .next { s with pending := s.pending.erase (level, slot) }

end Sys2Proof.Machine
end

