-- ==== Sys2Proof/Machine/Step.lean ====
section
/-! DEFINITION. One step: the first input still to be delivered takes effect, whole (20_memory.md R59, R63). With none, nothing
changes (60_exceptions.md R213, R214; log 11). -/

namespace Sys2Proof.Machine

/-- One step. -/
def step (s : State) : Host.Outcome State Fault Refusal :=
  match s.inputs with
  | [] => .next s
  | inp :: rest => deliver inp { s with inputs := rest }

/-- The state in which the event a table word stands for, its operands zero, is the next to be delivered (log 11, log 17). -/
def State.withFetchWord (s : State) (_nbits w : Nat) : State :=
  { s with inputs := .event (descOfTableWord w) .zero :: s.inputs }

end Sys2Proof.Machine
end

