-- ==== Sys2Proof/Machine/Configure.lean ====
section
/-! DEFINITION. Configuration between runs (20_memory.md R57, R68; 60_exceptions.md R211): installing a device and moving its base.
No event of a run calls these: DESIGN CHOICE (R68, log 32). -/

namespace Sys2Proof.Machine

/-- The configuration-time errors of R211. -/
inductive ConfigError where
  /-- "at install when base+span collides with another enabled device" -/
  | addressConflict
  /-- "a configuration change is rejected" -/
  | invalidParameter
  deriving DecidableEq, Repr

/-- The two devices of the block. -/
inductive Device where
  | eae
  | ser
  deriving DecidableEq, Repr

/-- A device's base address. -/
def deviceBase (c : Config) : Device → Nat
  | .eae => c.eaeBase
  | .ser => c.serBase

/-- The window a device has, or would have, at base `b`. -/
def deviceWindow (c : Config) (d : Device) (b : Nat) : Window :=
  match d with
  | .eae => ⟨b, 2 * c.eaeRegs⟩
  | .ser => ⟨b, 2 * c.serRegs⟩

/-- A device's base address replaced. -/
def withDeviceBase (c : Config) (d : Device) (b : Nat) : Config :=
  match d with
  | .eae => { c with eaeBase := b }
  | .ser => { c with serBase := b }

/-- A device enabled or disabled. -/
def withEnabled (c : Config) (d : Device) (on : Bool) : Config :=
  match d with
  | .eae => { c with eaeEnabled := on }
  | .ser => { c with serEnabled := on }

/-- The windows a device of the block must not overlap: that of the block's other device if it is enabled (R57), those of the two
stub devices (60_exceptions.md R224), and those of every other enabled device of the platform (`others`). -/
def claimedWindows (c : Config) (others : List Window) (d : Device) : List Window :=
  (match d with
    | .eae => if c.serEnabled then [c.serWindow] else []
    | .ser => if c.eaeEnabled then [c.eaeWindow] else [])
  ++ Config.stubWindows ++ others

/-- A window at `b` for device `d` overlaps a claimed one (R57, R224). -/
def conflicts (c : Config) (others : List Window) (d : Device) (b : Nat) : Bool :=
  (claimedWindows c others d).any (deviceWindow c d b).meets

/-- Install a device: an overlap fails with AddressConflict and "the device stays disabled, answering no cycles" (R57). It is the only
way the model enables a device. R68 counts `enabled` among the changes whose rejection is InvalidParameter, R57 and R211 have an
overlapping install fail as AddressConflict, and the spec does not say which of the two a change of `enabled` to true reports: the
model takes it as an install and answers AddressConflict, DESIGN CHOICE (log 43). -/
def installDevice (c : Config) (others : List Window) (d : Device) : Config × Option ConfigError :=
  if conflicts c others d (deviceBase c d) then (withEnabled c d false, some .addressConflict)
  else (withEnabled c d true, none)

/-- Change a device's base: a change that would overlap another enabled device is rejected and "left at its prior value"
(R68). Overlap is the one ground of rejection the spec names (R68, R211); it does not say whether an odd base, or one whose window
runs past the address space, is rejected. The model takes such a base, and `Config.valid` then refuses the configuration:
DESIGN CHOICE (log 42). -/
def changeBase (c : Config) (others : List Window) (d : Device) (b : Nat) : Config × Option ConfigError :=
  if conflicts c others d b then (c, some .invalidParameter) else (withDeviceBase c d b, none)

end Sys2Proof.Machine
end

