-- ==== Sys2Proof/Machine/Pseudo.lean ====
section
/-! DEFINITION. The pseudo-instructions of the spec's program notation and their expansions (30_encoding.md R79), and the run of a
list of operations, one after the other. -/

namespace Sys2Proof.Machine

/-- The pseudo-instructions of R79. -/
inductive Pseudo where
  | load32 (hi lo : Word)
  | loads16 (v : Word)
  /-- 1 ≤ k ≤ 31 -/
  | shl (k : Nat)
  /-- 1 ≤ k ≤ 32 -/
  | shr (k : Nat)
  /-- 1 ≤ k ≤ 31 -/
  | asl (k : Nat)
  /-- 1 ≤ k ≤ 32 -/
  | asr (k : Nat)
  | read32
  deriving DecidableEq, Repr

/-- The counts R79 allows. -/
def pseudoFits : Pseudo → Bool
  | .shl k | .asl k => decide (1 ≤ k ∧ k ≤ 31)
  | .shr k | .asr k => decide (1 ≤ k ∧ k ≤ 32)
  | .load32 _ _ | .loads16 _ | .read32 => true

/-- The expansion of a pseudo-instruction (R79). -/
def expandPseudo : Pseudo → List Instr
  | .load32 hi lo => [.datoWMq lo, .datoWAc hi]
  | .loads16 v => [.datoWMq v]
  | .shl k => [.datoWLsh (BitVec.ofNat 16 k)]
  | .shr k => [.datoWLsh (BitVec.ofNat 16 (64 - k))]
  | .asl k => [.datoWAsh (BitVec.ofNat 16 k)]
  | .asr k => [.datoWAsh (BitVec.ofNat 16 (64 - k))]
  | .read32 => [.datiAc, .datiMq]

/-- Operations one after the other (20_memory.md R63), stopping at the first refusal. -/
def execAll : List Instr → State → Host.Outcome State Fault Refusal
  | [], s => .next s
  | i :: rest, s =>
    match exec i s with
    | .next t => execAll rest t
    | .fault r => .fault r
    | .refused r => .refused r

end Sys2Proof.Machine
end

