-- ==== Sys2Proof/Safety.lean ====
section
/-! DEFINITION. The words the statements use: what a good state is (10_state.md R44), what an EAE write may change, the queue the
silo holds, and the events of each kind. -/

namespace Sys2Proof.Safety

open Sys2Proof.Machine

/-! ## The EAE -/

/-- The five dynamic flags agree with AC and MQ (41_eae_mul_div.md R121, 10_state.md R44). -/
def DynamicFlags (ac mq : Word) (sr : Sr) : Prop :=
  (sr.mqz = true ↔ mq = 0) ∧ (sr.acz = true ↔ ac = 0) ∧ (sr.acm1 = true ↔ ac = 0xFFFF)
    ∧ (sr.sxt = true ↔ (ac = 0 ∧ mq.getLsbD 15 = false) ∨ (ac = 0xFFFF ∧ mq.getLsbD 15 = true))
    ∧ (sr.z = true ↔ ac = 0 ∧ mq = 0)

/-- D as a 32-bit pattern (10_state.md R24). -/
def dOf (s : State) : Long := joinD s.ac s.mq

/-- The write latch of register r after the merge of a write cycle (40_bus_interface.md R102). -/
def latchAfter (s : State) (r : EaeReg) (acc : Access) (data : Word) : Word :=
  mergeLanes (s.eaeWL.get r) data (eaeWritable r &&& laneMask acc)

/-- The operand of a write cycle to register r (40_bus_interface.md R104). -/
def operandAt (s : State) (r : EaeReg) (acc : Access) (data : Word) : Word := operandOf acc (latchAfter s r acc data)

/-- The read latches an operation publishes (41_eae_mul_div.md R120). -/
def published (s t : State) : EaeLatches :=
  { s.eaeRL with
    ac := t.ac
    mq := t.mq
    scsr := scsrWord s.cfg.srLayout t.sr t.sc
    nor := t.sc.setWidth 16 }

/-- The frame of an EAE write that runs an operation: from s to t only AC, MQ, SC, SR, the published read latches, the written
register's write latch and the reply change, and the dynamic flags of t agree with its AC and MQ (R120, R121). -/
def Committed (s t : State) (r : EaeReg) (acc : Access) (data : Word) : Prop :=
  DynamicFlags t.ac t.mq t.sr ∧
    t = { s with
      ac := t.ac
      mq := t.mq
      sc := t.sc
      sr := t.sr
      eaeRL := published s t
      eaeWL := s.eaeWL.set r (latchAfter s r acc data)
      reply := none }

/-- N, NXV and C are unchanged. -/
def KeepsStoredFlags (s t : State) : Prop := t.sr.n = s.sr.n ∧ t.sr.nxv = s.sr.nxv ∧ t.sr.c = s.sr.c

/-- V, the overflow condition of an operation: NXV = N ⊕ V (41_eae_mul_div.md R124). -/
def overflow (t : State) : Bool := t.sr.n ^^ t.sr.nxv

/-- Three descriptors decode to the word, low-byte and high-byte write of register r, with the event's data (30_encoding.md
R74). -/
def WriteEncoding (r : EaeReg) (w bl bh : Desc) : Prop :=
  ∀ o : EventOperands, decode w o = .ok (eaeDatoInstr r .word o.data) ∧ decode bl o = .ok (eaeDatoInstr r .bytel o.data)
    ∧ decode bh o = .ok (eaeDatoInstr r .byteh o.data)

/-- NOR stops at D (42_eae_shift_normalize.md R140). -/
def NorStops (special : Word) (d : Long) : Prop :=
  (hiWord d = special ∧ loWord d = 0) ∨ d.getLsbD 31 ≠ d.getLsbD 30

/-! ## The silo -/

/-- The valid entries, oldest first (10_state.md R35, R36). -/
def queue (s : State) : List Word := s.silo.toList.take s.count

/-- SSR bits 13..8, the fill field (R38). -/
def fillField (s : State) : Nat := (s.ssr.toNat / 2 ^ 8) % 2 ^ 6

/-- SSR bits 5..0, the alarm level (R38). -/
def alarmField (s : State) : Nat := s.ssr.toNat % 2 ^ 6

/-- STORAGE_INT (R38). -/
def storageInt (s : State) : Bool := s.ssr.getLsbD s.cfg.ssrStorageIntBit.val

/-- The request the silo makes, as it is recorded (44_silo.md R192, 60_exceptions.md R215). -/
def requestOf (s : State) (kind : IrqKind) : IrqRequest := ⟨kind, s.cfg.serVector, s.cfg.serLevel, s.cfg.serSlot⟩

/-- From s to t exactly one interrupt of a kind was requested (R215): it is the newest of the log, and its (level, slot) is pending,
with whatever was pending before. -/
def Requested (kind : IrqKind) (s t : State) : Prop :=
  t.irqLog = s.irqLog ++ [requestOf s kind]
    ∧ (∀ p, p ∈ t.pending ↔ p = (s.cfg.serLevel, s.cfg.serSlot) ∨ p ∈ s.pending)

/-- From s to t no interrupt was requested or withdrawn. -/
def NoRequest (s t : State) : Prop := t.irqLog = s.irqLog ∧ t.pending = s.pending

/-- The registers named SCR, SSR and DEQ are three different ones (10_state.md R41). -/
def SerialNamesDistinct (c : Config) : Prop :=
  c.serRegmap.scr ≠ c.serRegmap.ssr ∧ c.serRegmap.deq ≠ c.serRegmap.ssr ∧ c.serRegmap.deq ≠ c.serRegmap.scr

/-- The fields of a stored entry (10_state.md R37, 44_silo.md R183). -/
def EntryFields (e char line : Word) (parityErr framingErr overrun : Bool) : Prop :=
  e.extractLsb' 0 8 = char.extractLsb' 0 8 ∧ e.extractLsb' 8 4 = line.extractLsb' 0 4 ∧ e.getLsbD 12 = parityErr
    ∧ e.getLsbD 13 = framingErr ∧ e.getLsbD 14 = overrun ∧ e.getLsbD 15 = true

/-! ## Kinds of events -/

/-- The bus signals (30_encoding.md R76). -/
def isSignal : Instr → Bool
  | .init | .dclo | .aclo | .initOff => true
  | _ => false

/-- The signals that reset the block (70_reset_and_hazards.md R240, R241). -/
def isReset : Instr → Bool
  | .init | .dclo => true
  | _ => false

/-- The receive-port enqueue. -/
def isEnqueue : Instr → Bool
  | .enq _ _ _ _ _ => true
  | _ => false

/-- The bus cycles of the EAE window (30_encoding.md R74). -/
def isEaeCycle (i : Instr) : Bool := decide ((encodeDesc i).toNat < 0x040)

/-- The bus cycles of the serial window and the receive-port events (R75, R76). -/
def isSerialEvent (i : Instr) : Bool := decide (0x040 ≤ (encodeDesc i).toNat ∧ (encodeDesc i).toNat < 0x100)

/-- A DATO of either window: `ctl = 1` of a bus cycle (R70). -/
def isDato (i : Instr) : Bool := decide (descKind (encodeDesc i) = 0) && descCtl (encodeDesc i)

/-- A dequeue: the port form, or the DATI of the dequeue register (44_silo.md R186). -/
def isDequeue (c : Config) (i : Instr) : Bool := decide (i = .deq) || decide (i = serDatiInstr (.ofFin c.serRegmap.deq))

/-! ## Good states -/

/-- The EAE part of 10_state.md R44, with R32 (WL[NOR]) and R33 (the read latches no operation writes). -/
def EaeInv (s : State) : Prop :=
  s.eaeRL.ac = s.ac ∧ s.eaeRL.mq = s.mq ∧ s.eaeRL.nor = s.sc.setWidth 16
    ∧ s.eaeRL.div = 0 ∧ s.eaeRL.mul = 0 ∧ s.eaeRL.lsh = 0 ∧ s.eaeRL.ash = 0 ∧ s.eaeWL.nor = 0

/-- The silo part of R44, with R183: every valid entry has its valid bit. -/
def SiloInv (s : State) : Prop :=
  s.count ≤ 64 ∧ fillField s = s.count % 2 ^ 6 ∧ ∀ w ∈ queue s, w.getLsbD 15 = true

/-- Requests carry the controller's vector, level and slot (44_silo.md R192), and the pending set holds no other entry and none
twice (60_exceptions.md R215). -/
def IrqInv (s : State) : Prop :=
  (∀ q ∈ s.irqLog, q = requestOf s q.kind) ∧ (∀ p ∈ s.pending, p = (s.cfg.serLevel, s.cfg.serSlot)) ∧ s.pending.Nodup

/-- A good state: a valid configuration (00_scope.md R6) and the three parts. -/
def GoodState (s : State) : Prop := s.cfg.valid = true ∧ EaeInv s ∧ SiloInv s ∧ IrqInv s

/-- What one event may do to the queue (44_silo.md R188, R189): an enqueue appends its entry when there is room and drops it when
there is none; a dequeue takes the oldest entry and returns it, or finds none; a reset empties the queue; nothing else touches
it. -/
def QueueStep (c : Config) (i : Instr) (before after : List Word) (reply : Option Reply) : Prop :=
  match i with
  | .enq char line pe fe ovr =>
    if before.length < 64 then
      ∃ e, EntryFields e char line pe fe ovr ∧ after = before ++ [e] ∧ reply = some (.accepted true)
    else after = before ∧ reply = some (.accepted false)
  | _ =>
    if isReset i then after = []
    else if isDequeue c i then
      (before = [] ∧ after = [] ∧ ∃ w, reply = some (.word w) ∧ w.getLsbD 15 = false)
        ∨ ∃ w, before = w :: after ∧ reply = some (.word w)
    else after = before

end Sys2Proof.Safety
end

