-- ==== Sys2Proof/Certificates/Slice0/Obligations.lean ====
section
/-! DEFINITION. The statements for the provers. Each is about the machine, in every state and for every operand its hypotheses
unlessInit; the hypothesis `s.initAsserted = false` is the spec's own condition for a bus cycle or receive-port event to be admitted
(70_reset_and_hazards.md R244). A statement "for all access modes" of an EAE register covers its word, low-byte and high-byte
constructors (`eaeDatoInstr`); "for all i" of `serDatiInstr` or `serDatoInstr` covers the serial registers' constructors. -/

open Sys2Proof Sys2Proof.Machine Sys2Proof.Safety

/-! ## Encoding -/

/-- Decode after encode, for every well-formed operation with every operand (30_encoding.md sections 1 to 3). -/
def Obligations.DecodeAfterEncodeIsIdentity : Prop :=
  ∀ i : Instr, i.wellFormed = true → decode (encode i).1 (encode i).2 = .ok i

/-- A descriptor that decodes has one meaning: the operation read encodes to that descriptor, and its operands fit
(30_encoding.md sections 1 to 3); and 70 descriptors are legal, the spec's own count. -/
def Obligations.EncodeAfterDecodeIsIdentityOnSeventyDescriptors : Prop :=
  (∀ (d : Desc) (o : EventOperands) (i : Instr), decode d o = .ok i → encodeDesc i = d ∧ i.wellFormed = true)
  ∧ ((List.finRange 512).filter fun d => (decode (.ofFin d) .zero).toBool).length = 70

/-- R77: an event is refused as reserved exactly when its descriptor is of one of the five reserved classes, whatever its operands and
the state. -/
def Obligations.ReservedDescriptorsAreExactlyTheFiveClasses : Prop :=
  ∀ (d : Desc) (o : EventOperands) (s : State) (rest : List Input), s.inputs = .event d o :: rest →
    ((∃ why, step s = .refused (.reservedDescriptor why)) ↔
      d.toNat / 128 = 3
        ∨ (d.toNat / 128 = 0 ∧ d.toNat / 16 % 4 = 3)
        ∨ (d.toNat / 128 = 0 ∧ d.toNat / 8 % 2 = 0 ∧ d.toNat / 16 % 4 ≠ 0)
        ∨ (d.toNat / 128 = 1 ∧ d.toNat / 2 % 64 ≠ 0)
        ∨ (d.toNat / 128 = 2 ∧ d.toNat / 4 % 32 ≠ 0))

/-- R74: the descriptor of each EAE bus cycle, register by register. -/
def Obligations.EaeCyclesDecodeByRegister : Prop :=
  ∀ (r : EaeReg) (o : EventOperands),
    decode (0x000 + r.idx.setWidth 9) o = .ok (eaeDatiInstr r)
      ∧ decode (0x008 + r.idx.setWidth 9) o = .ok (eaeDatoInstr r .word o.data)
      ∧ decode (0x018 + r.idx.setWidth 9) o = .ok (eaeDatoInstr r .bytel o.data)
      ∧ decode (0x028 + r.idx.setWidth 9) o = .ok (eaeDatoInstr r .byteh o.data)

/-- The descriptors of the serial bus cycles (30_encoding.md section 3) and of the port events and signals (R76). -/
def Obligations.SerialPortAndSignalWordsDecode : Prop :=
  (∀ (i : BitVec 3) (o : EventOperands),
    decode (0x040 + i.setWidth 9) o = .ok (serDatiInstr i)
      ∧ decode (0x048 + i.setWidth 9) o = .ok (.datoWSer i o.data)
      ∧ decode (0x058 + i.setWidth 9) o = .ok (.datoBLSer i o.data)
      ∧ decode (0x068 + i.setWidth 9) o = .ok (.datoBHSer i o.data))
  ∧ ∀ o : EventOperands,
    decode 0x080 o = .ok (.enq (o.char &&& 0xFF) (o.line &&& 0xF) o.parityErr o.framingErr o.overrun)
      ∧ decode 0x081 o = .ok .deq ∧ decode 0x100 o = .ok .init ∧ decode 0x101 o = .ok .dclo
      ∧ decode 0x102 o = .ok .aclo ∧ decode 0x103 o = .ok .initOff

/-! ## The step and the bus -/

/-- A step runs the decoded operation on the state with the event taken off the inputs; with no input it changes nothing (the
model's choice, log 11). An event given by its descriptor runs whether or not its device is enabled (the model's choice, log 41). -/
def Obligations.StepRunsTheDecodedOperation : Prop :=
  (∀ (s : State) (d : Desc) (o : EventOperands) (rest : List Input) (i : Instr),
    s.inputs = .event d o :: rest → decode d o = .ok i → step s = exec i { s with inputs := rest })
  ∧ (∀ (s : State) (a : Nat) (cy : BusCycle) (rest : List Input) (d : Desc) (o : EventOperands) (i : Instr),
    s.inputs = .cycle a cy :: rest → routeCycle s.cfg a cy = .delivered d o → decode d o = .ok i →
      step s = exec i { s with inputs := rest })
  ∧ ∀ s : State, s.inputs = [] → step s = .next s

/-- A bus cycle in an enabled device's window of a valid configuration runs its register's operation: an even address is a word
cycle, or the low byte of a byte write; an odd address is the high byte of a byte write; a byte read is the word read (20_memory.md
sections 1 and 2; the lane order is log 24; other register counts and bus widths than those of the spec's table
are log 2; what a configuration needs to be valid is collected in log 37). -/
def Obligations.CyclesInAWindowReachTheirRegister : Prop :=
  ∀ (s : State) (rest : List Input) (a : Nat) (i : BitVec 3) (data : Word),
    s.cfg.valid = true →
    ((s.cfg.eaeEnabled = true → i.toNat < s.cfg.eaeRegs → a / 2 = s.cfg.eaeBase / 2 + i.toNat →
      (a % 2 = 0 →
        step { s with inputs := .cycle a .dati :: rest } = exec (eaeDatiInstr (.ofIdx i)) { s with inputs := rest }
        ∧ step { s with inputs := .cycle a (.datoWord data) :: rest } =
          exec (eaeDatoInstr (.ofIdx i) .word data) { s with inputs := rest })
      ∧ step { s with inputs := .cycle a .datiByte :: rest } = exec (eaeDatiInstr (.ofIdx i)) { s with inputs := rest }
      ∧ step { s with inputs := .cycle a (.datoByte data) :: rest } =
        exec (eaeDatoInstr (.ofIdx i) (if a % 2 = 0 then .bytel else .byteh) data) { s with inputs := rest })
    ∧ (s.cfg.serEnabled = true → i.toNat < s.cfg.serRegs → a / 2 = s.cfg.serBase / 2 + i.toNat →
      (a % 2 = 0 →
        step { s with inputs := .cycle a .dati :: rest } = exec (serDatiInstr i) { s with inputs := rest }
        ∧ step { s with inputs := .cycle a (.datoWord data) :: rest } =
          exec (serDatoInstr i .word data) { s with inputs := rest })
      ∧ step { s with inputs := .cycle a .datiByte :: rest } = exec (serDatiInstr i) { s with inputs := rest }
      ∧ step { s with inputs := .cycle a (.datoByte data) :: rest } =
        exec (serDatoInstr i (if a % 2 = 0 then .bytel else .byteh) data) { s with inputs := rest }))

/-- A word cycle at an odd address of an enabled device's window is refused as OddWordCycle (20_memory.md section 1; the address is one
the bus can carry, log 2). Inside the INIT
interval that it is refused under this name, and not as CycleDuringInit, is the model's choice (DESIGN CHOICE, log 16). -/
def Obligations.OddWordCyclesAreRefused : Prop :=
  ∀ (s : State) (rest : List Input) (a : Nat) (data : Word), a % 2 = 1 → a < 2 ^ s.cfg.busAddrWidth →
    ((s.cfg.eaeEnabled = true ∧ s.cfg.eaeBase ≤ a ∧ a < s.cfg.eaeBase + 2 * s.cfg.eaeRegs)
      ∨ (s.cfg.serEnabled = true ∧ s.cfg.serBase ≤ a ∧ a < s.cfg.serBase + 2 * s.cfg.serRegs)) →
    step { s with inputs := .cycle a .dati :: rest } = .refused .oddWordCycle
      ∧ step { s with inputs := .cycle a (.datoWord data) :: rest } = .refused .oddWordCycle

/-- A cycle outside both windows, or in the window of a device that is not enabled, is not seen and changes nothing (20_memory.md
section 1; register counts log 2). That it is not refused inside the INIT interval either is DEDUCED (log 15). -/
def Obligations.CyclesOutsideTheWindowsChangeNothing : Prop :=
  ∀ (s : State) (rest : List Input) (a : Nat) (cy : BusCycle), s.inputs = .cycle a cy :: rest →
    ¬ (s.cfg.eaeEnabled = true ∧ s.cfg.eaeBase ≤ a ∧ a < s.cfg.eaeBase + 2 * s.cfg.eaeRegs) →
    ¬ (s.cfg.serEnabled = true ∧ s.cfg.serBase ≤ a ∧ a < s.cfg.serBase + 2 * s.cfg.serRegs) →
    step s = .next { s with inputs := rest }

/-- While INIT is asserted every bus cycle and receive-port event is refused, and every signal is admitted; the interval lasts until INIT
is deasserted, which closes it and changes nothing else (70_reset_and_hazards.md R244). -/
def Obligations.EventsDuringInitAreRefused : Prop :=
  (∀ (i : Instr) (s : State), s.initAsserted = true → isSignal i = false → exec i s = .refused .cycleDuringInit)
  ∧ (∀ (i : Instr) (s : State), isSignal i = true → ∃ t, exec i s = .next t ∧ (t.initAsserted = true ↔
      i = .init ∨ (s.initAsserted = true ∧ i ≠ .initOff)))
  ∧ ∀ s : State, exec .initOff s = .next { s with initAsserted := false, reply := none }

/-- No operation refuses for any other reason: outside the INIT interval every operation answers a next state
(60_exceptions.md section 1). -/
def Obligations.EveryOperationCompletesOutsideInit : Prop :=
  ∀ (i : Instr) (s : State), s.initAsserted = false → ∃ t, exec i s = .next t

/-- Each step takes exactly the first pending input, and no step changes the configuration (20_memory.md section 3). -/
def Obligations.StepsTakeInputsInOrderAndKeepTheConfiguration : Prop :=
  ∀ s t : State, step s = .next t → t.inputs = s.inputs.tail ∧ t.cfg = s.cfg

/-! ## Register cells -/

/-- R102: a bus write changes in the write latch exactly the bits that are writable and selected by the access mode, and no other
latch; for the 24 EAE writes and the 3 serial writes. -/
def Obligations.BusWritesChangeExactlyTheSelectedWritableBits : Prop :=
  (∀ (s : State) (r : EaeReg) (acc : Access) (data : Word), s.initAsserted = false →
    ∃ t, exec (eaeDatoInstr r acc data) s = .next t ∧ t.serWL = s.serWL
      ∧ (∀ q, q ≠ r → t.eaeWL.get q = s.eaeWL.get q)
      ∧ ∀ k, k < 16 → (t.eaeWL.get r).getLsbD k =
        if r ≠ .nor ∧ (acc = .word ∨ (acc = .bytel ∧ k < 8) ∨ (acc = .byteh ∧ 8 ≤ k)) then data.getLsbD k
        else (s.eaeWL.get r).getLsbD k)
  ∧ ∀ (s : State) (i : BitVec 3) (acc : Access) (data : Word), s.initAsserted = false →
    ∃ t, exec (serDatoInstr i acc data) s = .next t ∧ t.eaeWL = s.eaeWL
      ∧ (∀ j : Fin 8, j ≠ i.toFin → t.serWL[j] = s.serWL[j])
      ∧ ∀ k, k < 16 → (t.serWL[i.toFin]).getLsbD k =
        if (s.cfg.serWritable[i.toFin]).getLsbD k = true ∧ (acc = .word ∨ (acc = .bytel ∧ k < 8) ∨ (acc = .byteh ∧ 8 ≤ k))
        then data.getLsbD k else (s.serWL[i.toFin]).getLsbD k

/-- The write latches are changed by nothing but a bus write of their own register and a reset (40_bus_interface.md section 1). -/
def Obligations.OnlyWritesAndResetsChangeWriteLatches : Prop :=
  ∀ (i : Instr) (s t : State), isDato i = false → isReset i = false → exec i s = .next t →
    t.eaeWL = s.eaeWL ∧ t.serWL = s.serWL

/-- R104: the operand of an EAE write is the merged latch, a low byte with bit 7 set being sign-extended; here for every register whose
latch is writable. -/
def Obligations.ByteOperandsComeFromTheWriteLatch : Prop :=
  ∀ (s : State) (r : EaeReg) (data : Word), r ≠ .nor →
    operandAt s r .word data = data
      ∧ (data.getLsbD 7 = true → operandAt s r .bytel data = 0xFF#8 ++ data.extractLsb' 0 8)
      ∧ (data.getLsbD 7 = false → operandAt s r .bytel data = (s.eaeWL.get r).extractLsb' 8 8 ++ data.extractLsb' 0 8)
      ∧ operandAt s r .byteh data = data.extractLsb' 8 8 ++ (s.eaeWL.get r).extractLsb' 0 8

/-! ## SR -/

/-- R121, R123: `set_SR` recomputes the five dynamic flags from AC and MQ alone and preserves N, NXV and C. -/
def Obligations.SetSrRecomputesTheDynamicFlags : Prop :=
  ∀ (ac mq : Word) (sr : Sr), DynamicFlags ac mq (setSr ac mq sr)
    ∧ (setSr ac mq sr).n = sr.n ∧ (setSr ac mq sr).nxv = sr.nxv ∧ (setSr ac mq sr).c = sr.c

/-- After every EAE write but a byte write to SCSR, SXT says that D fits in 16 signed bits, its value being that of MQ
(41_eae_mul_div.md section 1, the spec's own inference R122). -/
def Obligations.SxtHoldsExactlyWhenDFitsInMq : Prop :=
  ∀ (s : State) (r : EaeReg) (acc : Access) (data : Word), s.initAsserted = false → r ≠ .scsr ∨ acc = .word →
    ∃ t, exec (eaeDatoInstr r acc data) s = .next t ∧ (t.sr.sxt = true ↔ (dOf t).toInt = t.mq.toInt)

/-- The SCSR word holds SC in bits 5..0, zeros in bits 7..6, and each flag at 8 + its position, under every layout that is a bijection
(10_state.md section 2). -/
def Obligations.ScsrWordHoldsEachFlagAtItsPosition : Prop :=
  ∀ (l : SrLayout) (sr : Sr) (sc : BitVec 6), Config.layoutValid l = true →
    let w := scsrWord l sr sc
    w.extractLsb' 0 6 = sc ∧ w.getLsbD 6 = false ∧ w.getLsbD 7 = false
      ∧ w.getLsbD (8 + l.n) = sr.n ∧ w.getLsbD (8 + l.nxv) = sr.nxv ∧ w.getLsbD (8 + l.c) = sr.c
      ∧ w.getLsbD (8 + l.mqz) = sr.mqz ∧ w.getLsbD (8 + l.acz) = sr.acz ∧ w.getLsbD (8 + l.acm1) = sr.acm1
      ∧ w.getLsbD (8 + l.sxt) = sr.sxt ∧ w.getLsbD (8 + l.z) = sr.z

/-- After MUL, DIV, NOR, LSH or ASH, N is the sign bit of the result word (MQ for DIV, AC for the others), and the operation uses
neither the old flags nor the old SC (41_eae_mul_div.md section 1, 10_state.md sections 1 and 2; the zero start of N, NXV and C is the
spec's decision D4, log 19). -/
def Obligations.OperationsSetNFromTheResultAndIgnoreOldFlags : Prop :=
  ∀ (r : EaeReg) (acc : Access) (data : Word) (s : State) (old : Sr) (k : BitVec 6),
    r ∈ [EaeReg.mul, .div, .nor, .lsh, .ash] → s.initAsserted = false →
    (∃ t, exec (eaeDatoInstr r acc data) s = .next t
      ∧ t.sr.n = (if r = .div then t.mq.getLsbD 15 else t.ac.getLsbD 15))
    ∧ exec (eaeDatoInstr r acc data) { s with sr := old, sc := k } = exec (eaeDatoInstr r acc data) s

/-! ## MUL and DIV -/

/-- MUL (R130), for its three access modes: AC:MQ is the exact signed product of MQ and the operand, SC is 0, N = NXV = the product's
sign, C = 0, the dynamic flags follow, and nothing else changes. -/
def Obligations.MulWritesTheSignedProduct : Prop :=
  WriteEncoding .mul 0x00B 0x01B 0x02B ∧
  ∀ (s : State) (acc : Access) (data : Word), s.initAsserted = false →
    ∃ t, exec (eaeDatoInstr .mul acc data) s = .next t ∧ Committed s t .mul acc data
      ∧ (dOf t).toInt = s.mq.toInt * (operandAt s .mul acc data).toInt
      ∧ t.sc = 0 ∧ t.sr.n = t.ac.getLsbD 15 ∧ t.sr.nxv = t.ac.getLsbD 15 ∧ t.sr.c = false ∧ overflow t = false

/-- DIV (R131 to R134), for its three access modes: with t = sint32(AC:MQ) and d = sint16(operand), the fail path is taken exactly when
|t| ≥ 2^16 |d|; the fail path does one divide step, the normal path writes the truncated quotient and the remainder; N is the sign of the
new MQ and NXV = N ⊕ V. -/
def Obligations.DivTakesTheFailOrTheNormalPath : Prop :=
  WriteEncoding .div 0x008 0x018 0x028 ∧
  ∀ (s : State) (acc : Access) (data : Word), s.initAsserted = false →
    let v := operandAt s .div acc data
    let t := (dOf s).toInt
    let d := v.toInt
    ∃ u, exec (eaeDatoInstr .div acc data) s = .next u ∧ Committed s u .div acc data
      ∧ u.sr.n = u.mq.getLsbD 15
      ∧ (2 ^ 16 * d.natAbs ≤ t.natAbs →
        let same := s.ac.getLsbD 15 == v.getLsbD 15
        let shifted := (dOf s <<< 1).extractLsb' 16 16
        u.ac = (if same then shifted - v else shifted + v)
          ∧ u.mq = (s.mq <<< 1) + (if same then 1 else 0)
          ∧ u.sc = 15 ∧ u.sr.c = (u.ac.getLsbD 15 == v.getLsbD 15) ∧ overflow u = true)
      ∧ (t.natAbs < 2 ^ 16 * d.natAbs →
        u.mq = BitVec.ofInt 16 (t.tdiv d) ∧ u.ac = BitVec.ofInt 16 (t.tmod d) ∧ u.sc = 0 ∧ u.sr.c = false
          ∧ (overflow u = true ↔ t.tdiv d < -32768 ∨ 32767 < t.tdiv d))

/-- The division law: when V = 0 the quotient and the remainder are exact, the remainder is smaller than the divisor and has the dividend's
sign, and SC is 0 or 15 in every case (41_eae_mul_div.md section 4, the spec's own inference R135). -/
def Obligations.DivisionWithoutOverflowIsExact : Prop :=
  ∀ (s : State) (acc : Access) (data : Word), s.initAsserted = false →
    let v := operandAt s .div acc data
    ∃ u, exec (eaeDatoInstr .div acc data) s = .next u ∧ (u.sc = 0 ∨ u.sc = 15)
      ∧ (overflow u = false →
        (dOf s).toInt = u.mq.toInt * v.toInt + u.ac.toInt ∧ u.ac.toInt.natAbs < v.toInt.natAbs
          ∧ (u.ac = 0 ∨ (u.ac.getLsbD 15 = (dOf s).getLsbD 31)))

/-- Division by zero is not trapped: it takes the fail path and reports V = 1, NXV = N ⊕ 1 (41_eae_mul_div.md section 3). -/
def Obligations.DivisionByZeroReportsOverflow : Prop :=
  ∀ (s : State) (acc : Access) (data : Word), s.initAsserted = false → operandAt s .div acc data = 0 →
    ∃ u, exec (eaeDatoInstr .div acc data) s = .next u ∧ u.sc = 15 ∧ u.sr.nxv = !u.sr.n
      ∧ u.ac = (dOf s <<< 1).extractLsb' 16 16 ∧ u.mq.getLsbD 0 = !s.ac.getLsbD 15

/-! ## NOR -/

/-- NOR (R140), for its three access modes and whatever data is written: D is shifted left k places, k ≤ 31 the first count at which the
loop's test holds, or 31; SC = k; N = NXV = the result's sign; C = 0. -/
def Obligations.NorShiftsToTheFirstStop : Prop :=
  WriteEncoding .nor 0x00D 0x01D 0x02D ∧
  ∀ (s : State) (acc : Access) (data : Word), s.initAsserted = false →
    ∃ t k, exec (eaeDatoInstr .nor acc data) s = .next t ∧ Committed s t .nor acc data
      ∧ k ≤ 31 ∧ t.sc.toNat = k ∧ dOf t = dOf s <<< k
      ∧ (∀ j, j < k → ¬ NorStops s.cfg.norSpecialAc (dOf s <<< j))
      ∧ (k = 31 ∨ NorStops s.cfg.norSpecialAc (dOf s <<< k))
      ∧ t.sr.n = t.ac.getLsbD 15 ∧ t.sr.nxv = t.ac.getLsbD 15 ∧ t.sr.c = false

/-- Normalizing loses nothing: the new D is the old one times 2^SC, exactly; with the special case at 0x6000 the result is normalized, or 31
shifts were done on 0 or on -1 (42_eae_shift_normalize.md section 1, the spec's own inference R141). -/
def Obligations.NormalizingKeepsTheValue : Prop :=
  ∀ (s : State) (acc : Access) (data : Word), s.initAsserted = false →
    ∃ t, exec (eaeDatoInstr .nor acc data) s = .next t
      ∧ (dOf t).toInt = (dOf s).toInt * 2 ^ t.sc.toNat
      ∧ (s.cfg.norSpecialAc = 0x6000 →
        t.ac.getLsbD 15 ≠ t.ac.getLsbD 14
          ∨ (t.sc = 31 ∧ ((dOf s = 0 ∧ dOf t = 0) ∨ (dOf s = 0xFFFFFFFF ∧ dOf t = 0x80000000))))

/-- The alternative stop of NOR (NOR_SPECIAL_AC = 0xC000): a D that reaches 0xC0000000 stops there (42_eae_shift_normalize.md section 1, the
spec's own inference R141, log 21). -/
def Obligations.AlternativeNorStopsAtMinusTwoToTheThirty : Prop :=
  ∀ (s : State) (acc : Access) (data : Word) (k : Nat), s.initAsserted = false → s.cfg.norSpecialAc = 0xC000 → k ≤ 30 →
    (dOf s).toInt * 2 ^ k = -(2 ^ 30) →
    ∃ t, exec (eaeDatoInstr .nor acc data) s = .next t ∧ t.ac = 0xC000 ∧ t.mq = 0 ∧ t.sc.toNat = k

/-! ## LSH and ASH -/

/-- LSH left, shift code 1 .. 31 (42_eae_shift_normalize.md section 3, the spec's own inference R144): D shifts left; V = 1 iff D[31:31-n] are
not all equal; C = D[32-n]; N = the new sign; SC = 0. -/
def Obligations.LshLeftShiftsAndReportsLostBits : Prop :=
  WriteEncoding .lsh 0x00E 0x01E 0x02E ∧
  ∀ (s : State) (acc : Access) (data : Word) (n : Nat), s.initAsserted = false →
    n = (operandAt s .lsh acc data).toNat % 64 → 1 ≤ n → n ≤ 31 →
    ∃ t, exec (eaeDatoInstr .lsh acc data) s = .next t ∧ Committed s t .lsh acc data
      ∧ dOf t = dOf s <<< n ∧ t.sc = 0
      ∧ t.sr.n = t.ac.getLsbD 15
      ∧ (overflow t = false ↔ ∀ j, 31 - n ≤ j → j ≤ 31 → (dOf s).getLsbD j = (dOf s).getLsbD 31)
      ∧ t.sr.c = (dOf s).getLsbD (32 - n)

/-- LSH right, shift code 32 .. 63, k = 64 - n places (42_eae_shift_normalize.md section 3, the spec's own inference R145): D shifts right with
zeros, 32 places give 0; C = D[k-1]; V = 0. -/
def Obligations.LshRightShiftsInZeros : Prop :=
  ∀ (s : State) (acc : Access) (data : Word) (n : Nat), s.initAsserted = false →
    n = (operandAt s .lsh acc data).toNat % 64 → 32 ≤ n →
    ∃ t, exec (eaeDatoInstr .lsh acc data) s = .next t ∧ Committed s t .lsh acc data
      ∧ (dOf t).toNat = (dOf s).toNat / 2 ^ (64 - n) ∧ t.sc = 0
      ∧ t.sr.n = t.ac.getLsbD 15 ∧ overflow t = false
      ∧ t.sr.c = (dOf s).getLsbD (63 - n)

/-- ASH left, shift code 1 .. 31 (42_eae_shift_normalize.md section 4, the spec's own inference R150, decision D5, log 20): the sign stays, the
low 31 bits shift; V = 1 iff D[30:31-n] are not all equal to the sign; C = D[31-n]; without overflow the value is multiplied by 2^n. -/
def Obligations.AshLeftKeepsTheSignAndReportsOverflow : Prop :=
  WriteEncoding .ash 0x00F 0x01F 0x02F ∧
  ∀ (s : State) (acc : Access) (data : Word) (n : Nat), s.initAsserted = false →
    n = (operandAt s .ash acc data).toNat % 64 → 1 ≤ n → n ≤ 31 →
    ∃ t, exec (eaeDatoInstr .ash acc data) s = .next t ∧ Committed s t .ash acc data
      ∧ (dOf t).getLsbD 31 = (dOf s).getLsbD 31
      ∧ (∀ j, j < 31 → (dOf t).getLsbD j = (dOf s <<< n).getLsbD j) ∧ t.sc = 0
      ∧ t.sr.n = t.ac.getLsbD 15
      ∧ (overflow t = false ↔ ∀ j, 31 - n ≤ j → j ≤ 30 → (dOf s).getLsbD j = (dOf s).getLsbD 31)
      ∧ t.sr.c = (dOf s).getLsbD (31 - n)
      ∧ (overflow t = false → (dOf t).toInt = (dOf s).toInt * 2 ^ n)

/-- ASH right, shift code 32 .. 63, k = 64 - n places (42_eae_shift_normalize.md section 4, the spec's own inference R151): the value is divided by
2^k, rounding toward minus infinity; C = D[k-1]; V = 0. -/
def Obligations.AshRightDividesRoundingDown : Prop :=
  ∀ (s : State) (acc : Access) (data : Word) (n : Nat), s.initAsserted = false →
    n = (operandAt s .ash acc data).toNat % 64 → 32 ≤ n →
    ∃ t, exec (eaeDatoInstr .ash acc data) s = .next t ∧ Committed s t .ash acc data
      ∧ (dOf t).toInt = (dOf s).toInt.fdiv (2 ^ (64 - n)) ∧ t.sc = 0
      ∧ t.sr.n = t.ac.getLsbD 15 ∧ overflow t = false
      ∧ t.sr.c = (dOf s).getLsbD (63 - n)

/-- Shift code 0 shifts nothing but rewrites SR's N, NXV and C and clears SC, for LSH and ASH (42_eae_shift_normalize.md section 5, the spec's
own inference R153). -/
def Obligations.ShiftCodeZeroRewritesTheFlags : Prop :=
  ∀ (s : State) (r : EaeReg) (acc : Access) (data : Word), s.initAsserted = false → r = .lsh ∨ r = .ash →
    (operandAt s r acc data).toNat % 64 = 0 →
    ∃ t, exec (eaeDatoInstr r acc data) s = .next t ∧ Committed s t r acc data
      ∧ t.ac = s.ac ∧ t.mq = s.mq ∧ t.sc = 0
      ∧ t.sr.n = s.ac.getLsbD 15 ∧ t.sr.nxv = s.ac.getLsbD 15 ∧ t.sr.c = false

/-- LSH and back: left n then right n leaves the low 32 - n bits, right n then left n the high ones, and the first shift's C is the last bit
shifted out (42_eae_shift_normalize.md section 3, the spec's own inference R146). -/
def Obligations.LogicalShiftRoundTrips : Prop :=
  ∀ (s : State) (n : Nat), s.initAsserted = false → 1 ≤ n → n ≤ 31 →
    (∃ t u, exec (.datoWLsh (BitVec.ofNat 16 n)) s = .next t ∧ exec (.datoWLsh (BitVec.ofNat 16 (64 - n))) t = .next u
      ∧ (dOf u).toNat = (dOf s).toNat % 2 ^ (32 - n)
      ∧ (dOf u = dOf s ↔ ∀ j, 32 - n ≤ j → j ≤ 31 → (dOf s).getLsbD j = false)
      ∧ t.sr.c = (dOf s).getLsbD (32 - n))
    ∧ ∃ t u, exec (.datoWLsh (BitVec.ofNat 16 (64 - n))) s = .next t ∧ exec (.datoWLsh (BitVec.ofNat 16 n)) t = .next u
      ∧ (dOf u).toNat = (dOf s).toNat - (dOf s).toNat % 2 ^ n
      ∧ (dOf u = dOf s ↔ ∀ j, j < n → (dOf s).getLsbD j = false)
      ∧ t.sr.c = (dOf s).getLsbD (n - 1)

/-- ASH and back: left n then right n restores D exactly iff the first shift did not overflow; right n then left n clears the low n bits and never
overflows; and no shift by a code other than 0 changes D[31] (42_eae_shift_normalize.md section 4, the spec's own inference R152). -/
def Obligations.ArithmeticShiftRoundTrips : Prop :=
  (∀ (s : State) (n : Nat), s.initAsserted = false → 1 ≤ n → n ≤ 31 →
    (∃ t u, exec (.datoWAsh (BitVec.ofNat 16 n)) s = .next t ∧ exec (.datoWAsh (BitVec.ofNat 16 (64 - n))) t = .next u
      ∧ (dOf u = dOf s ↔ overflow t = false))
    ∧ ∃ t u, exec (.datoWAsh (BitVec.ofNat 16 (64 - n))) s = .next t ∧ exec (.datoWAsh (BitVec.ofNat 16 n)) t = .next u
      ∧ (dOf u).toNat = (dOf s).toNat - (dOf s).toNat % 2 ^ n ∧ overflow u = false)
  ∧ ∀ (s : State) (acc : Access) (data : Word), s.initAsserted = false →
    ∃ t, exec (eaeDatoInstr .ash acc data) s = .next t ∧ (dOf t).getLsbD 31 = (dOf s).getLsbD 31

/-! ## Loading writes and reads -/

/-- AC write (R160), for its three access modes: AC is the operand and the five dynamic flags are recomputed from it; MQ, SC, N, NXV
and C do not change; the same cycle again changes nothing. -/
def Obligations.AcWriteLoadsTheAccumulator : Prop :=
  WriteEncoding .ac 0x009 0x019 0x029 ∧
  ∀ (s : State) (acc : Access) (data : Word), s.initAsserted = false →
    ∃ t, exec (eaeDatoInstr .ac acc data) s = .next t ∧ Committed s t .ac acc data
      ∧ t.ac = operandAt s .ac acc data ∧ t.mq = s.mq ∧ t.sc = s.sc ∧ KeepsStoredFlags s t
      ∧ exec (eaeDatoInstr .ac acc data) t = .next t

/-- MQ write (R161), for its three access modes: MQ is the operand and AC its sign extension; SC, N, NXV and C are unchanged; SXT = 1,
ACZ = ¬MQ[15], ACM1 = MQ[15], Z = MQZ; the write latch of AC is unchanged. -/
def Obligations.MqWriteLoadsMqAndSignExtendsIntoAc : Prop :=
  WriteEncoding .mq 0x00A 0x01A 0x02A ∧
  ∀ (s : State) (acc : Access) (data : Word), s.initAsserted = false →
    ∃ t, exec (eaeDatoInstr .mq acc data) s = .next t ∧ Committed s t .mq acc data
      ∧ t.mq = operandAt s .mq acc data ∧ dOf t = t.mq.signExtend 32 ∧ t.sc = s.sc ∧ KeepsStoredFlags s t
      ∧ t.sr.sxt = true ∧ t.sr.acz = !t.mq.getLsbD 15 ∧ t.sr.acm1 = t.mq.getLsbD 15
      ∧ t.sr.z = decide (t.mq = 0) ∧ t.sr.mqz = decide (t.mq = 0) ∧ t.eaeWL.ac = s.eaeWL.ac

/-- SCSR word write (R162): N, NXV and C from the data at their layout positions, SC from data bits 5..0, the data's other bits discarded; AC and
MQ unchanged; the same cycle again changes nothing. SCSR byte writes (R163): nothing but the write latch changes. -/
def Obligations.ScsrWordWriteLoadsFlagsAndCountAndByteWritesAreIgnored : Prop :=
  WriteEncoding .scsr 0x00C 0x01C 0x02C ∧
  ∀ (s : State) (data : Word), s.initAsserted = false →
    (∃ t, exec (.datoWScsr data) s = .next t ∧ Committed s t .scsr .word data
      ∧ t.ac = s.ac ∧ t.mq = s.mq ∧ t.sc.toNat = data.toNat % 64
      ∧ t.sr.n = data.getLsbD (8 + s.cfg.srLayout.n) ∧ t.sr.nxv = data.getLsbD (8 + s.cfg.srLayout.nxv)
      ∧ t.sr.c = data.getLsbD (8 + s.cfg.srLayout.c) ∧ exec (.datoWScsr data) t = .next t)
    ∧ exec (.datoBLScsr data) s =
      .next { s with eaeWL := { s.eaeWL with scsr := latchAfter s .scsr .bytel data }, reply := none }
    ∧ exec (.datoBHScsr data) s =
      .next { s with eaeWL := { s.eaeWL with scsr := latchAfter s .scsr .byteh data }, reply := none }

/-- LOAD32 (MQ first, then AC) loads D; AC first, then MQ, leaves AC the sign extension of MQ (70_reset_and_hazards.md section 3,
30_encoding.md section 5). -/
def Obligations.LoadingMqBeforeAcLoadsD : Prop :=
  ∀ (s : State) (hi lo : Word), s.initAsserted = false →
    (∃ t, execAll (expandPseudo (.load32 hi lo)) s = .next t ∧ t.ac = hi ∧ t.mq = lo ∧ dOf t = hi ++ lo)
    ∧ ∃ t, execAll [.datoWAc hi, .datoWMq lo] s = .next t ∧ t.mq = lo
      ∧ t.ac = if lo.getLsbD 15 = true then 0xFFFF else 0

/-- DATI SCSR (R167): the stored flags are recomputed and the returned word is that of SR and SC (its bits are pinned by
ScsrWordHoldsEachFlagAtItsPosition); nothing else changes, and a second read changes nothing and returns the same. -/
def Obligations.ReadingScsrRecomputesAndReturnsTheStatus : Prop :=
  (∀ o : EventOperands, decode 0x004 o = .ok .datiScsr) ∧
  ∀ s : State, s.initAsserted = false →
    ∃ t, exec .datiScsr s = .next t ∧ DynamicFlags s.ac s.mq t.sr ∧ KeepsStoredFlags s t
      ∧ t.reply = some (.word (scsrWord s.cfg.srLayout t.sr s.sc))
      ∧ t = { s with
          sr := t.sr
          eaeRL := { s.eaeRL with scsr := scsrWord s.cfg.srLayout t.sr s.sc }
          reply := t.reply }
      ∧ exec .datiScsr t = .next t

/-- DATI NOR returns SC (R164); DATI AC and DATI MQ return their read latches (R165, R166), which an operation never leaves different from AC
and MQ. -/
def Obligations.ReadingNorAcAndMq : Prop :=
  (∀ o : EventOperands, decode 0x005 o = .ok .datiNor ∧ decode 0x001 o = .ok .datiAc ∧ decode 0x002 o = .ok .datiMq) ∧
  ∀ s : State, s.initAsserted = false →
    exec .datiNor s = .next { s with
      eaeRL := { s.eaeRL with nor := s.sc.setWidth 16 }, reply := some (.word (s.sc.setWidth 16)) }
    ∧ exec .datiAc s = .next { s with reply := some (.word s.eaeRL.ac) }
    ∧ exec .datiMq s = .next { s with reply := some (.word s.eaeRL.mq) }
    ∧ (EaeInv s → exec .datiAc s = .next { s with reply := some (.word s.ac) }
        ∧ exec .datiMq s = .next { s with reply := some (.word s.mq) })

/-- DATI DIV, MUL, LSH and ASH return their read latches, which no operation writes: in a good state they return 0, whatever was written
(R168 to R171). -/
def Obligations.ReadingDivMulLshAshReturnsZero : Prop :=
  (∀ o : EventOperands, decode 0x000 o = .ok .datiDiv ∧ decode 0x003 o = .ok .datiMul
    ∧ decode 0x006 o = .ok .datiLsh ∧ decode 0x007 o = .ok .datiAsh) ∧
  ∀ s : State, s.initAsserted = false → EaeInv s →
    exec .datiDiv s = .next { s with reply := some (.word 0) }
      ∧ exec .datiMul s = .next { s with reply := some (.word 0) }
      ∧ exec .datiLsh s = .next { s with reply := some (.word 0) }
      ∧ exec .datiAsh s = .next { s with reply := some (.word 0) }

/-- No EAE read changes AC, MQ, SC, N, NXV, C, a write latch or anything of the serial controller, and what it returns depends on AC, MQ, SC, N,
NXV, C and the layout alone, in good states (43_eae_register_access.md section 2, the spec's own inference R172). -/
def Obligations.EaeReadsAreFunctionsOfTheVisibleState : Prop :=
  (∀ (r : EaeReg) (s t : State), exec (eaeDatiInstr r) s = .next t →
    t.ac = s.ac ∧ t.mq = s.mq ∧ t.sc = s.sc ∧ KeepsStoredFlags s t
      ∧ t = { s with sr := t.sr, eaeRL := t.eaeRL, reply := t.reply })
  ∧ ∀ (r : EaeReg) (s s' t t' : State), EaeInv s → EaeInv s' → s.cfg.srLayout = s'.cfg.srLayout →
    s.ac = s'.ac → s.mq = s'.mq → s.sc = s'.sc → s.sr.n = s'.sr.n → s.sr.nxv = s'.sr.nxv → s.sr.c = s'.sr.c →
    exec (eaeDatiInstr r) s = .next t → exec (eaeDatiInstr r) s' = .next t' → t.reply = t'.reply

/-! ## The silo -/

/-- Enqueue (R182). With room: the entry goes to `silo[count]` with its fields (R183), count rises by one, the fill field becomes the new
count modulo 64 and the other SSR bits stay, the alarm is requested exactly when the new count exceeds the alarm level and RX_INT_ENABLE is set
(R185), and the event answers accepted. On a full silo: the character is dropped, STORAGE_INT is set and nothing else of SSR, the storage
interrupt is requested exactly when S_INT_ENABLE is set, and the event answers not accepted; silo, count and fill field are unchanged. -/
def Obligations.EnqueueStoresOrDropsACharacter : Prop :=
  ∀ (s : State) (char line : Word) (pe fe ovr : Bool), s.initAsserted = false → SerialNamesDistinct s.cfg →
    ∃ t, exec (.enq char line pe fe ovr) s = .next t
      ∧ (∀ i : Fin 8, i ≠ s.cfg.serRegmap.ssr → t.serRL[i] = s.serRL[i])
      ∧ (s.count ≤ 63 →
        t.reply = some (.accepted true) ∧ t.count = s.count + 1
          ∧ (∃ e, EntryFields e char line pe fe ovr ∧ t.silo = s.silo.setIfInBounds s.count e)
          ∧ fillField t = (s.count + 1) % 64 ∧ t.ssr &&& 0xC0FF = s.ssr &&& 0xC0FF
          ∧ (alarmField s < s.count + 1 ∧ s.scr.getLsbD s.cfg.scrRxIntEnableBit = true → Requested .alarm s t)
          ∧ (¬ (alarmField s < s.count + 1 ∧ s.scr.getLsbD s.cfg.scrRxIntEnableBit = true) → NoRequest s t)
          ∧ t = { s with
              silo := t.silo, count := t.count, serRL := t.serRL, irqLog := t.irqLog, pending := t.pending, reply := t.reply })
      ∧ (63 < s.count →
        t.reply = some (.accepted false) ∧ storageInt t = true
          ∧ (∀ k, k ≠ s.cfg.ssrStorageIntBit.val → t.ssr.getLsbD k = s.ssr.getLsbD k)
          ∧ (s.scr.getLsbD s.cfg.scrSIntEnableBit = true → Requested .storage s t)
          ∧ (s.scr.getLsbD s.cfg.scrSIntEnableBit = false → NoRequest s t)
          ∧ t = { s with serRL := t.serRL, irqLog := t.irqLog, pending := t.pending, reply := t.reply })

/-- Dequeue (R186), as the port event and as the DATI of the dequeue register. With an entry: it returns `silo[0]` with bit 15 set, the valid
entries move down by one and every other slot keeps its content, count falls by one, the fill field follows and the other SSR bits stay. With
none (R187): the returned word has bit 15 clear; under `stale` it is `silo[0]` with bit 15 cleared, under `any` the next free value (log 7),
whatever that is; count, silo and SSR are unchanged. Nothing is requested, and the returned word goes to the register's read latch. -/
def Obligations.DequeueReturnsTheOldestEntryOrNone : Prop :=
  ∀ (s : State) (i : Instr), s.initAsserted = false → isDequeue s.cfg i = true → s.count ≤ 64 → SerialNamesDistinct s.cfg →
    ∃ t w, exec i s = .next t ∧ t.reply = some (.word w) ∧ w.getLsbD 15 = decide (0 < s.count)
      ∧ t.serRL[s.cfg.serRegmap.deq] = w
      ∧ (∀ j : Fin 8, j ≠ s.cfg.serRegmap.ssr → j ≠ s.cfg.serRegmap.deq → t.serRL[j] = s.serRL[j])
      ∧ (0 < s.count →
        w = s.silo[0] ||| 0x8000 ∧ t.count = s.count - 1
          ∧ (∀ (k : Nat) (h : k + 1 < 64), k + 1 < s.count → t.silo[k] = s.silo[k + 1])
          ∧ (∀ (k : Nat) (h : k < 64), s.count ≤ k + 1 → t.silo[k] = s.silo[k])
          ∧ fillField t = (s.count - 1) % 64 ∧ t.ssr &&& 0xC0FF = s.ssr &&& 0xC0FF
          ∧ t = { s with silo := t.silo, count := t.count, serRL := t.serRL, reply := t.reply })
      ∧ (s.count = 0 →
        (s.cfg.emptyReadPolicy = .stale → w = s.silo[0] &&& 0x7FFF ∧ t.draws = s.draws)
          ∧ (s.cfg.emptyReadPolicy = .any → w = (Config.freeEmptyRead s.draws).setWidth 16 ∧ t.draws = s.draws + 1)
          ∧ t.ssr = s.ssr ∧ t = { s with serRL := t.serRL, draws := t.draws, reply := t.reply })

/-- Serial DATI of any register but the dequeue register returns its read latch and changes nothing (R190); for all eight. -/
def Obligations.SerialReadsReturnTheReadLatch : Prop :=
  ∀ (s : State) (i : BitVec 3), s.initAsserted = false → i.toFin ≠ s.cfg.serRegmap.deq →
    exec (serDatiInstr i) s = .next { s with reply := some (.word s.serRL[i.toFin]) }

/-- Serial DATO (R191), for the three access modes: in the register value exactly the writable selected bits come from the data; in SSR the fill
field stays count modulo 64; the write latch takes the same bits; no interrupt is requested; nothing else changes. And STORAGE_INT, once set,
stays set through every event but INIT and DCLO, unless the host may write its bit. -/
def Obligations.SerialWritesReachTheRegisterValue : Prop :=
  (∀ (s : State) (i : BitVec 3) (acc : Access) (data : Word), s.initAsserted = false →
    ∃ t, exec (serDatoInstr i acc data) s = .next t
      ∧ (∀ k, k < 16 → (i.toFin = s.cfg.serRegmap.ssr → k < 8 ∨ 14 ≤ k) →
        (t.serRL[i.toFin]).getLsbD k =
          if (s.cfg.serWritable[i.toFin]).getLsbD k = true
            ∧ (acc = .word ∨ (acc = .bytel ∧ k < 8) ∨ (acc = .byteh ∧ 8 ≤ k))
          then data.getLsbD k else (s.serRL[i.toFin]).getLsbD k)
      ∧ (i.toFin = s.cfg.serRegmap.ssr → fillField t = s.count % 64)
      ∧ (∀ k, k < 16 → (t.serWL[i.toFin]).getLsbD k =
          if (s.cfg.serWritable[i.toFin]).getLsbD k = true
            ∧ (acc = .word ∨ (acc = .bytel ∧ k < 8) ∨ (acc = .byteh ∧ 8 ≤ k))
          then data.getLsbD k else (s.serWL[i.toFin]).getLsbD k)
      ∧ (∀ j : Fin 8, j ≠ i.toFin → t.serRL[j] = s.serRL[j] ∧ t.serWL[j] = s.serWL[j])
      ∧ t = { s with serRL := t.serRL, serWL := t.serWL, reply := none })
  ∧ ∀ (i : Instr) (s t : State), s.cfg.valid = true → isReset i = false → exec i s = .next t →
    (s.cfg.serWritable[s.cfg.serRegmap.ssr]).getLsbD s.cfg.ssrStorageIntBit = false →
    storageInt s = true → storageInt t = true

/-- The silo is a bounded first-in first-out queue: every event does to the valid entries exactly what the queue's own rule says, for every
operation and every good state (44_silo.md section 4, the spec's own inferences R188 and R189). -/
def Obligations.SiloRefinesABoundedQueue : Prop :=
  ∀ (i : Instr) (s t : State), s.cfg.valid = true → SiloInv s → exec i s = .next t →
    QueueStep s.cfg i (queue s) (queue t) t.reply

/-! ## Interrupts, isolation, reset, invariants -/

/-- Only an enqueue requests an interrupt, at most one a step; every other operation leaves the request log and the pending set alone
(60_exceptions.md section 3, R217). -/
def Obligations.OnlyAnEnqueueRequestsAndOnlyOnce : Prop :=
  ∀ (i : Instr) (s t : State), exec i s = .next t →
    NoRequest s t ∨ (isEnqueue i = true ∧ ∃ kind, Requested kind s t)

/-- A request that is already pending is absorbed by the pending set, and the adapter may remove an entry at any time, which changes nothing else
(60_exceptions.md R215). -/
def Obligations.PendingRequestsAreIdempotentAndRemovable : Prop :=
  (∀ (s : State) (kind : IrqKind), (s.cfg.serLevel, s.cfg.serSlot) ∈ s.pending → (requestIrq kind s).pending = s.pending)
  ∧ (∀ (s : State) (kind kind' : IrqKind), (requestIrq kind' (requestIrq kind s)).pending = (requestIrq kind s).pending)
  ∧ ∀ (s : State) (level slot : Nat) (rest : List Input), s.inputs = .irqRemoved level slot :: rest → s.pending.Nodup →
    ∃ t, step s = .next t ∧ (∀ p, p ∈ t.pending ↔ p ∈ s.pending ∧ p ≠ (level, slot))
      ∧ t = { s with pending := t.pending, inputs := rest }

/-- The two devices do not touch each other: an EAE cycle changes nothing of the serial controller, and a serial cycle or receive-port event
nothing of the EAE (60_exceptions.md sections 2 and 5). -/
def Obligations.TheTwoDevicesAreIsolated : Prop :=
  (∀ (i : Instr) (s t : State), isEaeCycle i = true → exec i s = .next t →
    t = { s with ac := t.ac, mq := t.mq, sc := t.sc, sr := t.sr, eaeRL := t.eaeRL, eaeWL := t.eaeWL, reply := t.reply })
  ∧ ∀ (i : Instr) (s t : State), isSerialEvent i = true → exec i s = .next t →
    t = { s with
      serRL := t.serRL, serWL := t.serWL, silo := t.silo, count := t.count, irqLog := t.irqLog, pending := t.pending
      draws := t.draws, reply := t.reply }

/-- INIT asserted and DCLO reset both devices (R240, R241, R243): every latch and register of R43 is 0, count is 0, the LPR mirrors are 0; the
silo array, the CAR and BCR mirrors, the request log, the pending set and the configuration are unchanged. INIT opens the INIT interval and
DCLO does not. -/
def Obligations.InitAndDcloReset : Prop :=
  ∀ s : State,
    (∃ t, exec .init s = .next t ∧ t.initAsserted = true
      ∧ t = { State.powerOn s.cfg s.silo s.carLine s.bcrLine with
          initAsserted := true, irqLog := s.irqLog, pending := s.pending, inputs := s.inputs, draws := s.draws })
    ∧ ∃ t, exec .dclo s = .next t ∧ (s.initAsserted = false → t.initAsserted = false)
      ∧ t = { State.powerOn s.cfg s.silo s.carLine s.bcrLine with
          initAsserted := t.initAsserted, irqLog := s.irqLog, pending := s.pending, inputs := s.inputs, draws := s.draws }

/-- An ACLO edge changes no state of the block (R242). -/
def Obligations.AcloChangesNothing : Prop :=
  ∀ s : State, exec .aclo s = .next { s with reply := none }

/-- The initial state of a run (10_state.md section 5), for every configuration and every power-on content of the three arrays the spec leaves
unspecified: every register and latch is 0, and the first read of SCSR returns MQZ, ACZ, SXT and Z set and every other bit clear. -/
def Obligations.PowerOnStateAndItsFirstStatusRead : Prop :=
  ∀ (cfg : Config) (silo : Vector Word 64) (car bcr : Vector Word 16),
    let s := State.powerOn cfg silo car bcr
    (s.ac = 0 ∧ s.mq = 0 ∧ s.sc = 0 ∧ s.sr.n = false ∧ s.sr.nxv = false ∧ s.sr.c = false ∧ s.count = 0
      ∧ (∀ r, s.eaeRL.get r = 0 ∧ s.eaeWL.get r = 0) ∧ (∀ i : Fin 8, s.serRL[i] = 0 ∧ s.serWL[i] = 0)
      ∧ s.ssr = 0 ∧ s.scr = 0 ∧ (∀ i : Fin 16, s.lprLine[i] = 0)
      ∧ s.silo = silo ∧ s.carLine = car ∧ s.bcrLine = bcr ∧ s.initAsserted = false)
    ∧ ∃ t, exec .datiScsr s = .next t
      ∧ t.reply = some (.word (scsrWord cfg.srLayout ⟨false, false, false, true, true, false, true, true⟩ 0))

/-- Every initial state with a valid configuration is good, and the default configuration is valid (10_state.md section 5; the defaults are log 3
to log 6; that the pending set and the log of requests start empty, on which the interrupt part of goodness rests, is the model's choice,
DESIGN CHOICE, log 40). -/
def Obligations.InitialStatesAreGood : Prop :=
  (∀ (cfg : Config) (silo : Vector Word 64) (car bcr : Vector Word 16), cfg.valid = true → GoodState (State.powerOn cfg silo car bcr))
  ∧ GoodState State.reset

/-- Every step from a good state leads to a good state (10_state.md section 5, the spec's own inference R44). -/
def Obligations.EveryStepKeepsTheInvariant : Prop :=
  ∀ s t : State, GoodState s → step s = .next t → GoodState t

/-- After every EAE write but a byte write to SCSR, the status a read returns next is the one the write published: the read latch of SCSR already
holds it, and reading leaves it there (10_state.md section 1, 43_eae_register_access.md section 2). -/
def Obligations.StatusIsPublishedByEveryOperation : Prop :=
  ∀ (s : State) (r : EaeReg) (acc : Access) (data : Word), s.initAsserted = false → r ≠ .scsr ∨ acc = .word →
    ∃ t, exec (eaeDatoInstr r acc data) s = .next t
      ∧ exec .datiScsr t = .next { t with reply := some (.word t.eaeRL.scsr) }
      ∧ exec .datiNor t = .next { t with reply := some (.word t.eaeRL.nor) }

/-- Configuration between runs, by the model's functions installDevice and changeBase (the model's own form, DESIGN CHOICE, log 32): a
device whose window overlaps an enabled device stays disabled and answers no cycle (that enabling a device is an install and so fails as
AddressConflict is the model's choice, DESIGN CHOICE, log 43); a base that would overlap is rejected and the
configuration is as before (20_memory.md sections 1 and 3); and any other base is taken, an odd one or one whose window runs past the
address space too (the model's choice, DESIGN CHOICE, log 42). -/
def Obligations.OverlappingDevicesStayDisabled : Prop :=
  ∀ (c : Config) (others : List Window) (d : Device) (b : Nat),
    (conflicts c others d (deviceBase c d) = true →
      installDevice c others d = (withEnabled c d false, some .addressConflict)
        ∧ ∀ (a : Nat) (w : Bool × BitVec 3),
          addressed (installDevice c others d).1 a = some w → w.1 = decide (d = .eae))
    ∧ (conflicts c others d b = true → changeBase c others d b = (c, some .invalidParameter))
    ∧ (conflicts c others d b = false → deviceBase (changeBase c others d b).1 d = b)

/-- In a valid configuration no address of the two stub devices selects a register of the block: a cycle there is not seen and changes
nothing (60_exceptions.md section 5; 20_memory.md section 1; inside the INIT interval DEDUCED, log 15). That a configuration which
overlaps a stub device is not valid is how the model takes "must not overlap" (log 37). -/
def Obligations.StubAddressesSelectNoRegister : Prop :=
  ∀ (s : State) (rest : List Input) (a : Nat) (cy : BusCycle), s.cfg.valid = true → s.inputs = .cycle a cy :: rest →
    (0o764040 ≤ a ∧ a < 0o764040 + 4) ∨ (0o764100 ≤ a ∧ a < 0o764100 + 52) →
    step s = .next { s with inputs := rest }
end

