-- ==== Sys2Proof/Laws/Flags.lean ====
section
/-! SUPPORT. What `set_SR` gives each flag (41_eae_mul_div.md R121), and the low bits of an SCSR word (10_state.md R30). -/

namespace Sys2Proof.Laws

open Sys2Proof.Machine

@[simp] theorem setSr_n (ac mq : Word) (sr : Sr) : (setSr ac mq sr).n = sr.n := by
  unfold setSr; split <;> split <;> split <;> rfl

@[simp] theorem setSr_nxv (ac mq : Word) (sr : Sr) : (setSr ac mq sr).nxv = sr.nxv := by
  unfold setSr; split <;> split <;> split <;> rfl

@[simp] theorem setSr_c (ac mq : Word) (sr : Sr) : (setSr ac mq sr).c = sr.c := by
  unfold setSr; split <;> split <;> split <;> rfl

@[simp] theorem setSr_mqz (ac mq : Word) (sr : Sr) : (setSr ac mq sr).mqz = decide (mq = 0) := by
  unfold setSr; split <;> split <;> split <;> simp_all

@[simp] theorem setSr_acz (ac mq : Word) (sr : Sr) : (setSr ac mq sr).acz = decide (ac = 0) := by
  unfold setSr; split <;> split <;> split <;> simp_all

@[simp] theorem setSr_acm1 (ac mq : Word) (sr : Sr) : (setSr ac mq sr).acm1 = decide (ac = 0xFFFF) := by
  unfold setSr; split <;> split <;> split <;> simp_all

@[simp] theorem setSr_z (ac mq : Word) (sr : Sr) : (setSr ac mq sr).z = (decide (ac = 0) && decide (mq = 0)) := by
  unfold setSr; split <;> split <;> split <;> simp_all

@[simp] theorem setSr_sxt (ac mq : Word) (sr : Sr) :
    (setSr ac mq sr).sxt =
      ((decide (ac = 0) && !signWord mq) || (decide (ac = 0xFFFF) && signWord mq)) := by
  unfold setSr; split <;> split <;> split <;> simp_all

/-- SR is the eight flags and no more (R123). -/
theorem sr_ext {a b : Sr} (hn : a.n = b.n) (hv : a.nxv = b.nxv) (hc : a.c = b.c) (h1 : a.mqz = b.mqz) (h2 : a.acz = b.acz)
    (h3 : a.acm1 = b.acm1) (h4 : a.sxt = b.sxt) (h5 : a.z = b.z) : a = b := by
  cases a; cases b; simp_all

/-- `set_SR` depends on the old SR only through N, NXV and C (R121). -/
theorem setSr_congr {ac mq : Word} {a b : Sr} (hn : a.n = b.n) (hv : a.nxv = b.nxv) (hc : a.c = b.c) :
    setSr ac mq a = setSr ac mq b := by
  apply sr_ext <;> simp [*]

/-- Recomputing twice is recomputing once. -/
@[simp] theorem setSr_setSr (ac mq : Word) (sr : Sr) : setSr ac mq (setSr ac mq sr) = setSr ac mq sr :=
  setSr_congr (setSr_n ..) (setSr_nxv ..) (setSr_c ..)

/-- A bit of the high byte of an SCSR word is the SR byte's (R30). -/
theorem scsrWord_high (l : SrLayout) (sr : Sr) (sc : BitVec 6) (k : Nat) :
    (scsrWord l sr sc).getLsbD (8 + k) = (srByte l sr).getLsbD k := by
  rw [scsrWord, BitVec.getLsbD_append]
  simp

/-- A bit of the low byte of an SCSR word is SC's, zero above bit 5 (R30). -/
theorem scsrWord_low (l : SrLayout) (sr : Sr) (sc : BitVec 6) (k : Nat) (hk : k < 8) :
    (scsrWord l sr sc).getLsbD k = sc.getLsbD k := by
  rw [scsrWord, BitVec.getLsbD_append]
  simp [hk]

/-- A flag's contribution to the SR byte: its own bit, at its own position (R29). -/
theorem srBit_bit (b : Bool) (pos k : Fin 8) : (srBit b pos).getLsbD k.val = (b && decide (k = pos)) := by
  revert b
  revert pos
  revert k
  decide

end Sys2Proof.Laws
end

