-- ==== Sys2Proof/Laws/Latches.lean ====
section
/-! SUPPORT. Read after write for the EAE's latches, and the bits of a merged latch and of an operand (40_bus_interface.md R102,
R104). -/

namespace Sys2Proof.Laws

open Sys2Proof.Machine

@[simp] theorem latches_get_set_same (l : EaeLatches) (r : EaeReg) (v : Word) : (l.set r v).get r = v := by
  cases r <;> rfl

theorem latches_get_set_other (l : EaeLatches) {r q : EaeReg} (v : Word) (h : q ≠ r) : (l.set r v).get q = l.get q := by
  cases r <;> cases q <;> first | rfl | exact absurd rfl h

@[simp] theorem latches_set_set (l : EaeLatches) (r : EaeReg) (v w : Word) : (l.set r v).set r w = l.set r w := by
  cases r <;> rfl

@[simp] theorem latches_set_get (l : EaeLatches) (r : EaeReg) : l.set r (l.get r) = l := by
  cases r <;> rfl

@[simp] theorem latches_fill_get (v : Word) (r : EaeReg) : (EaeLatches.fill v).get r = v := by
  cases r <;> rfl

/-- Two latch files that agree at every register are equal. -/
theorem latches_ext {l m : EaeLatches} (h : ∀ r, l.get r = m.get r) : l = m := by
  cases l; cases m
  simp only [EaeLatches.mk.injEq]
  exact ⟨h .div, h .ac, h .mq, h .mul, h .scsr, h .nor, h .lsh, h .ash⟩

@[simp] theorem ofIdx_idx (r : EaeReg) : EaeReg.ofIdx r.idx = r := by cases r <;> rfl

@[simp] theorem idx_ofIdx (i : BitVec 3) : (EaeReg.ofIdx i).idx = i := by revert i; decide

/-- A bit of a merged latch comes from the new value where the mask has it, from the old one elsewhere (R102). -/
theorem mergeLanes_bit (old v m : Word) (k : Nat) :
    (mergeLanes old v m).getLsbD k = if m.getLsbD k then v.getLsbD k else old.getLsbD k := by
  by_cases hk : k < 16
  · simp only [mergeLanes, BitVec.getLsbD_or, BitVec.getLsbD_and, BitVec.getLsbD_not, hk, decide_true, Bool.true_and]
    cases m.getLsbD k <;> simp
  · simp [BitVec.getLsbD_of_ge _ _ (Nat.not_lt.mp hk)]

/-- Merging the same value under the same mask again changes nothing. -/
@[simp] theorem mergeLanes_idem (old v m : Word) : mergeLanes (mergeLanes old v m) v m = mergeLanes old v m := by
  apply BitVec.eq_of_getLsbD_eq
  intro k _
  simp only [mergeLanes_bit]
  split <;> rfl

/-- The bits a lane mask selects (R102). -/
theorem laneMask_bit (acc : Access) (k : Nat) (hk : k < 16) :
    (laneMask acc).getLsbD k = true ↔ acc = .word ∨ (acc = .bytel ∧ k < 8) ∨ (acc = .byteh ∧ 8 ≤ k) := by
  revert k
  cases acc <;> decide

/-- The writable mask of an EAE cell has every bit, but for NOR's, which has none (00_scope.md R7). -/
theorem eaeWritable_bit (r : EaeReg) (k : Nat) (hk : k < 16) : (eaeWritable r).getLsbD k = true ↔ r ≠ .nor := by
  revert k
  cases r <;> decide

@[simp] theorem eaeWritable_of_ne {r : EaeReg} (h : r ≠ .nor) : eaeWritable r = 0xFFFF := by
  cases r <;> first | rfl | exact absurd rfl h

/-- NOR's write latch is never changed by a merge (00_scope.md R7, 10_state.md R32). -/
@[simp] theorem mergeLanes_nor (old v : Word) (acc : Access) :
    mergeLanes old v (eaeWritable .nor &&& laneMask acc) = old := by
  apply BitVec.eq_of_getLsbD_eq
  intro k _
  simp [mergeLanes_bit, eaeWritable]

/-- A word write's operand is the data (R104). -/
theorem operandOf_word (latch : Word) : operandOf .word latch = latch := by simp [operandOf]

/-- A high-byte write's operand is the merged latch (R104). -/
theorem operandOf_byteh (latch : Word) : operandOf .byteh latch = latch := by simp [operandOf]

/-- A low-byte write's operand is sign-extended when bit 7 is set (R104). -/
theorem operandOf_bytel (latch : Word) :
    operandOf .bytel latch = if latch.getLsbD 7 then latch ||| 0xFF00 else latch := by
  simp [operandOf, signByte]

end Sys2Proof.Laws
end

