-- ==== Sys2Proof/Laws/State.lean ====
section
/-! SUPPORT. The fields of the state after each named update of Machine/Ops.lean, one lemma per field, so that no proof unfolds an
update. -/

namespace Sys2Proof.Laws

open Sys2Proof.Machine

/-! ### deviceWrite -/

@[simp] theorem deviceWrite_cfg (s : State) (r : EaeReg) (v : Word) : (s.deviceWrite r v).cfg = s.cfg := rfl
@[simp] theorem deviceWrite_ac (s : State) (r : EaeReg) (v : Word) : (s.deviceWrite r v).ac = s.ac := rfl
@[simp] theorem deviceWrite_mq (s : State) (r : EaeReg) (v : Word) : (s.deviceWrite r v).mq = s.mq := rfl
@[simp] theorem deviceWrite_sc (s : State) (r : EaeReg) (v : Word) : (s.deviceWrite r v).sc = s.sc := rfl
@[simp] theorem deviceWrite_sr (s : State) (r : EaeReg) (v : Word) : (s.deviceWrite r v).sr = s.sr := rfl
@[simp] theorem deviceWrite_eaeRL (s : State) (r : EaeReg) (v : Word) : (s.deviceWrite r v).eaeRL = s.eaeRL.set r v := rfl
@[simp] theorem deviceWrite_eaeWL (s : State) (r : EaeReg) (v : Word) : (s.deviceWrite r v).eaeWL = s.eaeWL := rfl
@[simp] theorem deviceWrite_serRL (s : State) (r : EaeReg) (v : Word) : (s.deviceWrite r v).serRL = s.serRL := rfl
@[simp] theorem deviceWrite_serWL (s : State) (r : EaeReg) (v : Word) : (s.deviceWrite r v).serWL = s.serWL := rfl
@[simp] theorem deviceWrite_silo (s : State) (r : EaeReg) (v : Word) : (s.deviceWrite r v).silo = s.silo := rfl
@[simp] theorem deviceWrite_count (s : State) (r : EaeReg) (v : Word) : (s.deviceWrite r v).count = s.count := rfl
@[simp] theorem deviceWrite_lprLine (s : State) (r : EaeReg) (v : Word) : (s.deviceWrite r v).lprLine = s.lprLine := rfl
@[simp] theorem deviceWrite_carLine (s : State) (r : EaeReg) (v : Word) : (s.deviceWrite r v).carLine = s.carLine := rfl
@[simp] theorem deviceWrite_bcrLine (s : State) (r : EaeReg) (v : Word) : (s.deviceWrite r v).bcrLine = s.bcrLine := rfl
@[simp] theorem deviceWrite_initAsserted (s : State) (r : EaeReg) (v : Word) : (s.deviceWrite r v).initAsserted = s.initAsserted := rfl
@[simp] theorem deviceWrite_irqLog (s : State) (r : EaeReg) (v : Word) : (s.deviceWrite r v).irqLog = s.irqLog := rfl
@[simp] theorem deviceWrite_pending (s : State) (r : EaeReg) (v : Word) : (s.deviceWrite r v).pending = s.pending := rfl
@[simp] theorem deviceWrite_reply (s : State) (r : EaeReg) (v : Word) : (s.deviceWrite r v).reply = s.reply := rfl
@[simp] theorem deviceWrite_inputs (s : State) (r : EaeReg) (v : Word) : (s.deviceWrite r v).inputs = s.inputs := rfl
@[simp] theorem deviceWrite_draws (s : State) (r : EaeReg) (v : Word) : (s.deviceWrite r v).draws = s.draws := rfl

/-! ### busWrite -/

@[simp] theorem busWrite_cfg (s : State) (r : EaeReg) (v : Word) (acc : Access) : (s.busWrite r v acc).cfg = s.cfg := rfl
@[simp] theorem busWrite_ac (s : State) (r : EaeReg) (v : Word) (acc : Access) : (s.busWrite r v acc).ac = s.ac := rfl
@[simp] theorem busWrite_mq (s : State) (r : EaeReg) (v : Word) (acc : Access) : (s.busWrite r v acc).mq = s.mq := rfl
@[simp] theorem busWrite_sc (s : State) (r : EaeReg) (v : Word) (acc : Access) : (s.busWrite r v acc).sc = s.sc := rfl
@[simp] theorem busWrite_sr (s : State) (r : EaeReg) (v : Word) (acc : Access) : (s.busWrite r v acc).sr = s.sr := rfl
@[simp] theorem busWrite_eaeRL (s : State) (r : EaeReg) (v : Word) (acc : Access) : (s.busWrite r v acc).eaeRL = s.eaeRL := rfl
@[simp] theorem busWrite_eaeWL (s : State) (r : EaeReg) (v : Word) (acc : Access) : (s.busWrite r v acc).eaeWL = s.eaeWL.set r (mergeLanes (s.eaeWL.get r) v (eaeWritable r &&& laneMask acc)) := rfl
@[simp] theorem busWrite_serRL (s : State) (r : EaeReg) (v : Word) (acc : Access) : (s.busWrite r v acc).serRL = s.serRL := rfl
@[simp] theorem busWrite_serWL (s : State) (r : EaeReg) (v : Word) (acc : Access) : (s.busWrite r v acc).serWL = s.serWL := rfl
@[simp] theorem busWrite_silo (s : State) (r : EaeReg) (v : Word) (acc : Access) : (s.busWrite r v acc).silo = s.silo := rfl
@[simp] theorem busWrite_count (s : State) (r : EaeReg) (v : Word) (acc : Access) : (s.busWrite r v acc).count = s.count := rfl
@[simp] theorem busWrite_lprLine (s : State) (r : EaeReg) (v : Word) (acc : Access) : (s.busWrite r v acc).lprLine = s.lprLine := rfl
@[simp] theorem busWrite_carLine (s : State) (r : EaeReg) (v : Word) (acc : Access) : (s.busWrite r v acc).carLine = s.carLine := rfl
@[simp] theorem busWrite_bcrLine (s : State) (r : EaeReg) (v : Word) (acc : Access) : (s.busWrite r v acc).bcrLine = s.bcrLine := rfl
@[simp] theorem busWrite_initAsserted (s : State) (r : EaeReg) (v : Word) (acc : Access) : (s.busWrite r v acc).initAsserted = s.initAsserted := rfl
@[simp] theorem busWrite_irqLog (s : State) (r : EaeReg) (v : Word) (acc : Access) : (s.busWrite r v acc).irqLog = s.irqLog := rfl
@[simp] theorem busWrite_pending (s : State) (r : EaeReg) (v : Word) (acc : Access) : (s.busWrite r v acc).pending = s.pending := rfl
@[simp] theorem busWrite_reply (s : State) (r : EaeReg) (v : Word) (acc : Access) : (s.busWrite r v acc).reply = s.reply := rfl
@[simp] theorem busWrite_inputs (s : State) (r : EaeReg) (v : Word) (acc : Access) : (s.busWrite r v acc).inputs = s.inputs := rfl
@[simp] theorem busWrite_draws (s : State) (r : EaeReg) (v : Word) (acc : Access) : (s.busWrite r v acc).draws = s.draws := rfl

/-! ### serDeviceWrite -/

@[simp] theorem serDeviceWrite_cfg (s : State) (i : Fin 8) (v : Word) : (s.serDeviceWrite i v).cfg = s.cfg := rfl
@[simp] theorem serDeviceWrite_ac (s : State) (i : Fin 8) (v : Word) : (s.serDeviceWrite i v).ac = s.ac := rfl
@[simp] theorem serDeviceWrite_mq (s : State) (i : Fin 8) (v : Word) : (s.serDeviceWrite i v).mq = s.mq := rfl
@[simp] theorem serDeviceWrite_sc (s : State) (i : Fin 8) (v : Word) : (s.serDeviceWrite i v).sc = s.sc := rfl
@[simp] theorem serDeviceWrite_sr (s : State) (i : Fin 8) (v : Word) : (s.serDeviceWrite i v).sr = s.sr := rfl
@[simp] theorem serDeviceWrite_eaeRL (s : State) (i : Fin 8) (v : Word) : (s.serDeviceWrite i v).eaeRL = s.eaeRL := rfl
@[simp] theorem serDeviceWrite_eaeWL (s : State) (i : Fin 8) (v : Word) : (s.serDeviceWrite i v).eaeWL = s.eaeWL := rfl
@[simp] theorem serDeviceWrite_serRL (s : State) (i : Fin 8) (v : Word) : (s.serDeviceWrite i v).serRL = s.serRL.set i.val v i.isLt := rfl
@[simp] theorem serDeviceWrite_serWL (s : State) (i : Fin 8) (v : Word) : (s.serDeviceWrite i v).serWL = s.serWL := rfl
@[simp] theorem serDeviceWrite_silo (s : State) (i : Fin 8) (v : Word) : (s.serDeviceWrite i v).silo = s.silo := rfl
@[simp] theorem serDeviceWrite_count (s : State) (i : Fin 8) (v : Word) : (s.serDeviceWrite i v).count = s.count := rfl
@[simp] theorem serDeviceWrite_lprLine (s : State) (i : Fin 8) (v : Word) : (s.serDeviceWrite i v).lprLine = s.lprLine := rfl
@[simp] theorem serDeviceWrite_carLine (s : State) (i : Fin 8) (v : Word) : (s.serDeviceWrite i v).carLine = s.carLine := rfl
@[simp] theorem serDeviceWrite_bcrLine (s : State) (i : Fin 8) (v : Word) : (s.serDeviceWrite i v).bcrLine = s.bcrLine := rfl
@[simp] theorem serDeviceWrite_initAsserted (s : State) (i : Fin 8) (v : Word) : (s.serDeviceWrite i v).initAsserted = s.initAsserted := rfl
@[simp] theorem serDeviceWrite_irqLog (s : State) (i : Fin 8) (v : Word) : (s.serDeviceWrite i v).irqLog = s.irqLog := rfl
@[simp] theorem serDeviceWrite_pending (s : State) (i : Fin 8) (v : Word) : (s.serDeviceWrite i v).pending = s.pending := rfl
@[simp] theorem serDeviceWrite_reply (s : State) (i : Fin 8) (v : Word) : (s.serDeviceWrite i v).reply = s.reply := rfl
@[simp] theorem serDeviceWrite_inputs (s : State) (i : Fin 8) (v : Word) : (s.serDeviceWrite i v).inputs = s.inputs := rfl
@[simp] theorem serDeviceWrite_draws (s : State) (i : Fin 8) (v : Word) : (s.serDeviceWrite i v).draws = s.draws := rfl

/-! ### serBusWrite -/

@[simp] theorem serBusWrite_cfg (s : State) (i : Fin 8) (v m : Word) : (s.serBusWrite i v m).cfg = s.cfg := rfl
@[simp] theorem serBusWrite_ac (s : State) (i : Fin 8) (v m : Word) : (s.serBusWrite i v m).ac = s.ac := rfl
@[simp] theorem serBusWrite_mq (s : State) (i : Fin 8) (v m : Word) : (s.serBusWrite i v m).mq = s.mq := rfl
@[simp] theorem serBusWrite_sc (s : State) (i : Fin 8) (v m : Word) : (s.serBusWrite i v m).sc = s.sc := rfl
@[simp] theorem serBusWrite_sr (s : State) (i : Fin 8) (v m : Word) : (s.serBusWrite i v m).sr = s.sr := rfl
@[simp] theorem serBusWrite_eaeRL (s : State) (i : Fin 8) (v m : Word) : (s.serBusWrite i v m).eaeRL = s.eaeRL := rfl
@[simp] theorem serBusWrite_eaeWL (s : State) (i : Fin 8) (v m : Word) : (s.serBusWrite i v m).eaeWL = s.eaeWL := rfl
@[simp] theorem serBusWrite_serRL (s : State) (i : Fin 8) (v m : Word) : (s.serBusWrite i v m).serRL = s.serRL := rfl
@[simp] theorem serBusWrite_serWL (s : State) (i : Fin 8) (v m : Word) : (s.serBusWrite i v m).serWL = s.serWL.set i.val (mergeLanes s.serWL[i.val] v m) i.isLt := rfl
@[simp] theorem serBusWrite_silo (s : State) (i : Fin 8) (v m : Word) : (s.serBusWrite i v m).silo = s.silo := rfl
@[simp] theorem serBusWrite_count (s : State) (i : Fin 8) (v m : Word) : (s.serBusWrite i v m).count = s.count := rfl
@[simp] theorem serBusWrite_lprLine (s : State) (i : Fin 8) (v m : Word) : (s.serBusWrite i v m).lprLine = s.lprLine := rfl
@[simp] theorem serBusWrite_carLine (s : State) (i : Fin 8) (v m : Word) : (s.serBusWrite i v m).carLine = s.carLine := rfl
@[simp] theorem serBusWrite_bcrLine (s : State) (i : Fin 8) (v m : Word) : (s.serBusWrite i v m).bcrLine = s.bcrLine := rfl
@[simp] theorem serBusWrite_initAsserted (s : State) (i : Fin 8) (v m : Word) : (s.serBusWrite i v m).initAsserted = s.initAsserted := rfl
@[simp] theorem serBusWrite_irqLog (s : State) (i : Fin 8) (v m : Word) : (s.serBusWrite i v m).irqLog = s.irqLog := rfl
@[simp] theorem serBusWrite_pending (s : State) (i : Fin 8) (v m : Word) : (s.serBusWrite i v m).pending = s.pending := rfl
@[simp] theorem serBusWrite_reply (s : State) (i : Fin 8) (v m : Word) : (s.serBusWrite i v m).reply = s.reply := rfl
@[simp] theorem serBusWrite_inputs (s : State) (i : Fin 8) (v m : Word) : (s.serBusWrite i v m).inputs = s.inputs := rfl
@[simp] theorem serBusWrite_draws (s : State) (i : Fin 8) (v m : Word) : (s.serBusWrite i v m).draws = s.draws := rfl

/-! ### withReply -/

@[simp] theorem withReply_cfg (s : State) (r : Option Reply) : (s.withReply r).cfg = s.cfg := rfl
@[simp] theorem withReply_ac (s : State) (r : Option Reply) : (s.withReply r).ac = s.ac := rfl
@[simp] theorem withReply_mq (s : State) (r : Option Reply) : (s.withReply r).mq = s.mq := rfl
@[simp] theorem withReply_sc (s : State) (r : Option Reply) : (s.withReply r).sc = s.sc := rfl
@[simp] theorem withReply_sr (s : State) (r : Option Reply) : (s.withReply r).sr = s.sr := rfl
@[simp] theorem withReply_eaeRL (s : State) (r : Option Reply) : (s.withReply r).eaeRL = s.eaeRL := rfl
@[simp] theorem withReply_eaeWL (s : State) (r : Option Reply) : (s.withReply r).eaeWL = s.eaeWL := rfl
@[simp] theorem withReply_serRL (s : State) (r : Option Reply) : (s.withReply r).serRL = s.serRL := rfl
@[simp] theorem withReply_serWL (s : State) (r : Option Reply) : (s.withReply r).serWL = s.serWL := rfl
@[simp] theorem withReply_silo (s : State) (r : Option Reply) : (s.withReply r).silo = s.silo := rfl
@[simp] theorem withReply_count (s : State) (r : Option Reply) : (s.withReply r).count = s.count := rfl
@[simp] theorem withReply_lprLine (s : State) (r : Option Reply) : (s.withReply r).lprLine = s.lprLine := rfl
@[simp] theorem withReply_carLine (s : State) (r : Option Reply) : (s.withReply r).carLine = s.carLine := rfl
@[simp] theorem withReply_bcrLine (s : State) (r : Option Reply) : (s.withReply r).bcrLine = s.bcrLine := rfl
@[simp] theorem withReply_initAsserted (s : State) (r : Option Reply) : (s.withReply r).initAsserted = s.initAsserted := rfl
@[simp] theorem withReply_irqLog (s : State) (r : Option Reply) : (s.withReply r).irqLog = s.irqLog := rfl
@[simp] theorem withReply_pending (s : State) (r : Option Reply) : (s.withReply r).pending = s.pending := rfl
@[simp] theorem withReply_reply (s : State) (r : Option Reply) : (s.withReply r).reply = r := rfl
@[simp] theorem withReply_inputs (s : State) (r : Option Reply) : (s.withReply r).inputs = s.inputs := rfl
@[simp] theorem withReply_draws (s : State) (r : Option Reply) : (s.withReply r).draws = s.draws := rfl

/-! ### withSsr -/

@[simp] theorem withSsr_cfg (s : State) (v : Word) : (s.withSsr v).cfg = s.cfg := rfl
@[simp] theorem withSsr_ac (s : State) (v : Word) : (s.withSsr v).ac = s.ac := rfl
@[simp] theorem withSsr_mq (s : State) (v : Word) : (s.withSsr v).mq = s.mq := rfl
@[simp] theorem withSsr_sc (s : State) (v : Word) : (s.withSsr v).sc = s.sc := rfl
@[simp] theorem withSsr_sr (s : State) (v : Word) : (s.withSsr v).sr = s.sr := rfl
@[simp] theorem withSsr_eaeRL (s : State) (v : Word) : (s.withSsr v).eaeRL = s.eaeRL := rfl
@[simp] theorem withSsr_eaeWL (s : State) (v : Word) : (s.withSsr v).eaeWL = s.eaeWL := rfl
@[simp] theorem withSsr_serRL (s : State) (v : Word) : (s.withSsr v).serRL = s.serRL.set s.cfg.serRegmap.ssr.val v s.cfg.serRegmap.ssr.isLt := rfl
@[simp] theorem withSsr_serWL (s : State) (v : Word) : (s.withSsr v).serWL = s.serWL := rfl
@[simp] theorem withSsr_silo (s : State) (v : Word) : (s.withSsr v).silo = s.silo := rfl
@[simp] theorem withSsr_count (s : State) (v : Word) : (s.withSsr v).count = s.count := rfl
@[simp] theorem withSsr_lprLine (s : State) (v : Word) : (s.withSsr v).lprLine = s.lprLine := rfl
@[simp] theorem withSsr_carLine (s : State) (v : Word) : (s.withSsr v).carLine = s.carLine := rfl
@[simp] theorem withSsr_bcrLine (s : State) (v : Word) : (s.withSsr v).bcrLine = s.bcrLine := rfl
@[simp] theorem withSsr_initAsserted (s : State) (v : Word) : (s.withSsr v).initAsserted = s.initAsserted := rfl
@[simp] theorem withSsr_irqLog (s : State) (v : Word) : (s.withSsr v).irqLog = s.irqLog := rfl
@[simp] theorem withSsr_pending (s : State) (v : Word) : (s.withSsr v).pending = s.pending := rfl
@[simp] theorem withSsr_reply (s : State) (v : Word) : (s.withSsr v).reply = s.reply := rfl
@[simp] theorem withSsr_inputs (s : State) (v : Word) : (s.withSsr v).inputs = s.inputs := rfl
@[simp] theorem withSsr_draws (s : State) (v : Word) : (s.withSsr v).draws = s.draws := rfl

/-! ### requestIrq -/

@[simp] theorem requestIrq_cfg (k : IrqKind) (s : State) : (requestIrq k s).cfg = s.cfg := rfl
@[simp] theorem requestIrq_ac (k : IrqKind) (s : State) : (requestIrq k s).ac = s.ac := rfl
@[simp] theorem requestIrq_mq (k : IrqKind) (s : State) : (requestIrq k s).mq = s.mq := rfl
@[simp] theorem requestIrq_sc (k : IrqKind) (s : State) : (requestIrq k s).sc = s.sc := rfl
@[simp] theorem requestIrq_sr (k : IrqKind) (s : State) : (requestIrq k s).sr = s.sr := rfl
@[simp] theorem requestIrq_eaeRL (k : IrqKind) (s : State) : (requestIrq k s).eaeRL = s.eaeRL := rfl
@[simp] theorem requestIrq_eaeWL (k : IrqKind) (s : State) : (requestIrq k s).eaeWL = s.eaeWL := rfl
@[simp] theorem requestIrq_serRL (k : IrqKind) (s : State) : (requestIrq k s).serRL = s.serRL := rfl
@[simp] theorem requestIrq_serWL (k : IrqKind) (s : State) : (requestIrq k s).serWL = s.serWL := rfl
@[simp] theorem requestIrq_silo (k : IrqKind) (s : State) : (requestIrq k s).silo = s.silo := rfl
@[simp] theorem requestIrq_count (k : IrqKind) (s : State) : (requestIrq k s).count = s.count := rfl
@[simp] theorem requestIrq_lprLine (k : IrqKind) (s : State) : (requestIrq k s).lprLine = s.lprLine := rfl
@[simp] theorem requestIrq_carLine (k : IrqKind) (s : State) : (requestIrq k s).carLine = s.carLine := rfl
@[simp] theorem requestIrq_bcrLine (k : IrqKind) (s : State) : (requestIrq k s).bcrLine = s.bcrLine := rfl
@[simp] theorem requestIrq_initAsserted (k : IrqKind) (s : State) : (requestIrq k s).initAsserted = s.initAsserted := rfl
@[simp] theorem requestIrq_irqLog (k : IrqKind) (s : State) : (requestIrq k s).irqLog = s.irqLog ++ [⟨k, s.cfg.serVector, s.cfg.serLevel, s.cfg.serSlot⟩] := rfl
@[simp] theorem requestIrq_pending (k : IrqKind) (s : State) : (requestIrq k s).pending = s.pending.insert (s.cfg.serLevel, s.cfg.serSlot) := rfl
@[simp] theorem requestIrq_reply (k : IrqKind) (s : State) : (requestIrq k s).reply = s.reply := rfl
@[simp] theorem requestIrq_inputs (k : IrqKind) (s : State) : (requestIrq k s).inputs = s.inputs := rfl
@[simp] theorem requestIrq_draws (k : IrqKind) (s : State) : (requestIrq k s).draws = s.draws := rfl

/-! ### resetBlock -/

@[simp] theorem resetBlock_cfg (s : State) : (resetBlock s).cfg = s.cfg := rfl
@[simp] theorem resetBlock_ac (s : State) : (resetBlock s).ac = 0 := rfl
@[simp] theorem resetBlock_mq (s : State) : (resetBlock s).mq = 0 := rfl
@[simp] theorem resetBlock_sc (s : State) : (resetBlock s).sc = 0 := rfl
@[simp] theorem resetBlock_sr (s : State) : (resetBlock s).sr = ⟨false, false, false, false, false, false, false, false⟩ := rfl
@[simp] theorem resetBlock_eaeRL (s : State) : (resetBlock s).eaeRL = .fill 0 := rfl
@[simp] theorem resetBlock_eaeWL (s : State) : (resetBlock s).eaeWL = .fill 0 := rfl
@[simp] theorem resetBlock_serRL (s : State) : (resetBlock s).serRL = Vector.replicate 8 0 := rfl
@[simp] theorem resetBlock_serWL (s : State) : (resetBlock s).serWL = Vector.replicate 8 0 := rfl
@[simp] theorem resetBlock_silo (s : State) : (resetBlock s).silo = s.silo := rfl
@[simp] theorem resetBlock_count (s : State) : (resetBlock s).count = 0 := rfl
@[simp] theorem resetBlock_lprLine (s : State) : (resetBlock s).lprLine = Vector.replicate 16 0 := rfl
@[simp] theorem resetBlock_carLine (s : State) : (resetBlock s).carLine = s.carLine := rfl
@[simp] theorem resetBlock_bcrLine (s : State) : (resetBlock s).bcrLine = s.bcrLine := rfl
@[simp] theorem resetBlock_initAsserted (s : State) : (resetBlock s).initAsserted = s.initAsserted := rfl
@[simp] theorem resetBlock_irqLog (s : State) : (resetBlock s).irqLog = s.irqLog := rfl
@[simp] theorem resetBlock_pending (s : State) : (resetBlock s).pending = s.pending := rfl
@[simp] theorem resetBlock_reply (s : State) : (resetBlock s).reply = s.reply := rfl
@[simp] theorem resetBlock_inputs (s : State) : (resetBlock s).inputs = s.inputs := rfl
@[simp] theorem resetBlock_draws (s : State) : (resetBlock s).draws = s.draws := rfl

end Sys2Proof.Laws
end

