-- ==== Sys2Proof/Laws/Ops.lean ====
section
/-! SUPPORT. What each shared operation can do, said once: admission (R244), commit and publish (R120), dispatch (R106), the interrupt
request (R215). -/

namespace Sys2Proof.Laws

open Sys2Proof.Machine

/-- An admitted event answers exactly its effect, and only outside the INIT interval. -/
theorem unlessInit_eq_next_iff {s t u : State} : unlessInit s t = .next u ↔ s.initAsserted = false ∧ t = u := by
  unfold unlessInit
  cases s.initAsserted <;> simp

@[simp] theorem unlessInit_of_not_init {s : State} (t : State) (h : s.initAsserted = false) : unlessInit s t = .next t := by
  simp [unlessInit, h]

@[simp] theorem unlessInit_of_init {s : State} (t : State) (h : s.initAsserted = true) :
    unlessInit s t = .refused .cycleDuringInit := by
  simp [unlessInit, h]

/-- `commit` in one equation: the recomputed SR, and the four published read latches (R120). -/
theorem commit_eq (s : State) :
    commit s = { s with
      sr := setSr s.ac s.mq s.sr
      eaeRL := { s.eaeRL with
        ac := s.ac
        mq := s.mq
        scsr := scsrWord s.cfg.srLayout (setSr s.ac s.mq s.sr) s.sc
        nor := s.sc.setWidth 16 } } := rfl

@[simp] theorem commit_ac (s : State) : (commit s).ac = s.ac := rfl
@[simp] theorem commit_mq (s : State) : (commit s).mq = s.mq := rfl
@[simp] theorem commit_sc (s : State) : (commit s).sc = s.sc := rfl
@[simp] theorem commit_sr (s : State) : (commit s).sr = setSr s.ac s.mq s.sr := rfl
@[simp] theorem commit_cfg (s : State) : (commit s).cfg = s.cfg := rfl
@[simp] theorem commit_eaeWL (s : State) : (commit s).eaeWL = s.eaeWL := rfl
@[simp] theorem commit_initAsserted (s : State) : (commit s).initAsserted = s.initAsserted := rfl

/-- Publishing a result, in one equation (R120, R124). -/
theorem publish_eq (r : EaeResult) (s : State) :
    publish r s = commit { s with ac := r.ac, mq := r.mq, sc := r.sc, sr := { s.sr with n := r.n, nxv := r.nxv, c := r.c } } :=
  rfl

@[simp] theorem publish_ac (r : EaeResult) (s : State) : (publish r s).ac = r.ac := rfl
@[simp] theorem publish_mq (r : EaeResult) (s : State) : (publish r s).mq = r.mq := rfl
@[simp] theorem publish_sc (r : EaeResult) (s : State) : (publish r s).sc = r.sc := rfl
@[simp] theorem publish_n (r : EaeResult) (s : State) : (publish r s).sr.n = r.n := by simp [publish]
@[simp] theorem publish_nxv (r : EaeResult) (s : State) : (publish r s).sr.nxv = r.nxv := by simp [publish]
@[simp] theorem publish_c (r : EaeResult) (s : State) : (publish r s).sr.c = r.c := by simp [publish]

/-- Publishing forgets the old SC and the old flags (10_state.md R25, R27). -/
theorem publish_forgets (r : EaeResult) (s : State) (old : Sr) (k : BitVec 6) :
    publish r { s with sr := old, sc := k } = publish r s := by
  have h : setSr r.ac r.mq { old with n := r.n, nxv := r.nxv, c := r.c }
      = setSr r.ac r.mq { s.sr with n := r.n, nxv := r.nxv, c := r.c } := setSr_congr rfl rfl rfl
  simp only [publish_eq, commit_eq, h]

/-- A DATO in one equation: the merged latch, the operation on its operand, no reply (R106). -/
theorem eaeDato_eq (r : EaeReg) (acc : Access) (data : Word) (op : Word → State → State) (s : State) :
    eaeDato r acc data op s =
      (op (operandOf acc (mergeLanes (s.eaeWL.get r) data (eaeWritable r &&& laneMask acc)))
        (s.busWrite r data acc)).withReply none := by
  have h : eaeActiveOnWrite r = true := by cases r <;> rfl
  simp [eaeDato, h]

/-- A DATI of a register that is active on read (R106, R109). -/
theorem eaeDati_active {r : EaeReg} (h : eaeActiveOnRead r = true) (routine : State → State) (s : State) :
    eaeDati r routine s = (routine s).withReply (some (.word ((routine s).eaeRL.get r))) := by
  simp [eaeDati, h]

/-- A DATI without a routine returns the read latch and changes nothing (R106). -/
@[simp] theorem eaeDati_id (r : EaeReg) (s : State) : eaeDati r id s = s.withReply (some (.word (s.eaeRL.get r))) := by
  simp [eaeDati]

/-- The pending set after a request: the controller's entry and whatever was pending (R215). -/
theorem mem_requestIrq_pending (k : IrqKind) (s : State) (p : Nat × Nat) :
    p ∈ (requestIrq k s).pending ↔ p = (s.cfg.serLevel, s.cfg.serSlot) ∨ p ∈ s.pending := by
  simp

/-- A request never puts an entry twice into the pending set (R215). -/
theorem requestIrq_pending_nodup (k : IrqKind) {s : State} (h : s.pending.Nodup) : (requestIrq k s).pending.Nodup :=
  h.insert

end Sys2Proof.Laws
end

