-- ==== Sys2Proof/Laws/Exec.lean ====
section
/-! SUPPORT. The 49 operations as ten shapes, and `exec` once per shape: a read or a write of an EAE register, a read or a write of a
serial register, the two receive-port events and the four signals. Proofs about every operation split into these shapes, not into
the constructors. -/

namespace Sys2Proof.Laws

open Sys2Proof.Machine

/-- The operation a write to an EAE register starts (41_eae_mul_div.md R130, R131; 42_eae_shift_normalize.md R140, R143, R149;
43_eae_register_access.md R160 to R163). -/
def writeOp (r : EaeReg) (acc : Access) : Word → State → State :=
  match r, acc with
  | .div, _ => opDiv
  | .ac, _ => opAc
  | .mq, _ => opMq
  | .mul, _ => opMul
  | .scsr, .word => opScsr
  | .scsr, _ => opScsrByte
  | .nor, _ => opNor
  | .lsh, _ => opLsh
  | .ash, _ => opAsh

/-- The read routine of an EAE register; only SCSR and NOR have one (43_eae_register_access.md R164 to R171). -/
def readRoutine (r : EaeReg) : State → State :=
  match r with
  | .scsr => readScsr
  | .nor => readNor
  | _ => id

/-- Every operation has one of ten shapes (30_encoding.md R74 to R76). -/
theorem instr_shapes {P : Instr → Prop} (i : Instr)
    (eaeRead : ∀ r, P (eaeDatiInstr r)) (eaeWrite : ∀ r acc data, P (eaeDatoInstr r acc data))
    (serRead : ∀ j, P (serDatiInstr j)) (serWrite : ∀ j acc data, P (serDatoInstr j acc data))
    (enq : ∀ char line pe fe ovr, P (.enq char line pe fe ovr)) (deq : P .deq)
    (init : P .init) (dclo : P .dclo) (aclo : P .aclo) (initOff : P .initOff) : P i := by
  cases i with
  | datiDiv => exact eaeRead .div
  | datiAc => exact eaeRead .ac
  | datiMq => exact eaeRead .mq
  | datiMul => exact eaeRead .mul
  | datiScsr => exact eaeRead .scsr
  | datiNor => exact eaeRead .nor
  | datiLsh => exact eaeRead .lsh
  | datiAsh => exact eaeRead .ash
  | datoWDiv data => exact eaeWrite .div .word data
  | datoBLDiv data => exact eaeWrite .div .bytel data
  | datoBHDiv data => exact eaeWrite .div .byteh data
  | datoWAc data => exact eaeWrite .ac .word data
  | datoBLAc data => exact eaeWrite .ac .bytel data
  | datoBHAc data => exact eaeWrite .ac .byteh data
  | datoWMq data => exact eaeWrite .mq .word data
  | datoBLMq data => exact eaeWrite .mq .bytel data
  | datoBHMq data => exact eaeWrite .mq .byteh data
  | datoWMul data => exact eaeWrite .mul .word data
  | datoBLMul data => exact eaeWrite .mul .bytel data
  | datoBHMul data => exact eaeWrite .mul .byteh data
  | datoWScsr data => exact eaeWrite .scsr .word data
  | datoBLScsr data => exact eaeWrite .scsr .bytel data
  | datoBHScsr data => exact eaeWrite .scsr .byteh data
  | datoWNor data => exact eaeWrite .nor .word data
  | datoBLNor data => exact eaeWrite .nor .bytel data
  | datoBHNor data => exact eaeWrite .nor .byteh data
  | datoWLsh data => exact eaeWrite .lsh .word data
  | datoBLLsh data => exact eaeWrite .lsh .bytel data
  | datoBHLsh data => exact eaeWrite .lsh .byteh data
  | datoWAsh data => exact eaeWrite .ash .word data
  | datoBLAsh data => exact eaeWrite .ash .bytel data
  | datoBHAsh data => exact eaeWrite .ash .byteh data
  | datiSer0 => exact serRead 0
  | datiSer1 => exact serRead 1
  | datiSer2 => exact serRead 2
  | datiSer3 => exact serRead 3
  | datiSer4 => exact serRead 4
  | datiSer5 => exact serRead 5
  | datiSer6 => exact serRead 6
  | datiSer7 => exact serRead 7
  | datoWSer j data => exact serWrite j .word data
  | datoBLSer j data => exact serWrite j .bytel data
  | datoBHSer j data => exact serWrite j .byteh data
  | enq char line pe fe ovr => exact enq char line pe fe ovr
  | deq => exact deq
  | init => exact init
  | dclo => exact dclo
  | aclo => exact aclo
  | initOff => exact initOff

/-- A DATI of an EAE register (R106). -/
theorem exec_eaeDati (r : EaeReg) (s : State) : exec (eaeDatiInstr r) s = unlessInit s (eaeDati r (readRoutine r) s) := by
  cases r <;> rfl

/-- A DATO of an EAE register (R106). -/
theorem exec_eaeDato (r : EaeReg) (acc : Access) (data : Word) (s : State) :
    exec (eaeDatoInstr r acc data) s = unlessInit s (eaeDato r acc data (writeOp r acc) s) := by
  cases r <;> cases acc <;> rfl

/-- A DATI of a serial register (44_silo.md R186, R190). -/
theorem exec_serDati (j : BitVec 3) (s : State) : exec (serDatiInstr j) s = unlessInit s (serDati j.toFin s) := by
  obtain ⟨k, hk⟩ := j
  match k, hk with
  | 0, _ | 1, _ | 2, _ | 3, _ | 4, _ | 5, _ | 6, _ | 7, _ => rfl

/-- A DATO of a serial register (R191). -/
theorem exec_serDato (j : BitVec 3) (acc : Access) (data : Word) (s : State) :
    exec (serDatoInstr j acc data) s = unlessInit s (serDato j.toFin acc data s) := by
  cases acc <;> rfl

/-- An enqueue (R182). -/
theorem exec_enq (char line : Word) (pe fe ovr : Bool) (s : State) :
    exec (.enq char line pe fe ovr) s = unlessInit s (enqueue char line pe fe ovr s) := rfl

/-- The port form of a dequeue (R186). -/
theorem exec_deq (s : State) : exec .deq s = unlessInit s (dequeue s) := rfl

/-- INIT asserted (R240). -/
theorem exec_init (s : State) : exec .init s = .next ({ resetBlock s with initAsserted := true }.withReply none) := rfl

/-- DCLO (R241). -/
theorem exec_dclo (s : State) : exec .dclo s = .next ((resetBlock s).withReply none) := rfl

/-- ACLO (R242). -/
theorem exec_aclo (s : State) : exec .aclo s = .next (s.withReply none) := rfl

/-- INIT deasserted (R244). -/
theorem exec_initOff (s : State) : exec .initOff s = .next ({ s with initAsserted := false }.withReply none) := rfl

end Sys2Proof.Laws
end

