-- ==== Sys2Proof/Laws/Eae.lean ====
section
/-! SUPPORT. The frame of an EAE write said once: whatever the operation computes, committing it changes the published latches, the written
register's write latch and the reply, and nothing else (40_bus_interface.md R106, 41_eae_mul_div.md R120). -/

namespace Sys2Proof.Laws

open Sys2Proof.Machine Sys2Proof.Safety

/-- What the commit publishes agrees with AC and MQ (R121). -/
theorem setSr_dynamic (ac mq : Word) (sr : Sr) : DynamicFlags ac mq (setSr ac mq sr) := by
  refine ⟨by simp, by simp, by simp, ?_, by simp⟩
  rw [setSr_sxt]
  unfold signWord
  cases mq.getLsbD 15 <;> simp

/-- The commit of any AC, MQ, SC and SR after a write cycle has the frame of R120. -/
theorem committed_commit (s : State) (r : EaeReg) (acc : Access) (data : Word) (ac mq : Word) (sc : BitVec 6) (sr : Sr) :
    Committed s ((commit { s.busWrite r data acc with ac := ac, mq := mq, sc := sc, sr := sr }).withReply none) r acc data :=
  ⟨setSr_dynamic ac mq sr, rfl⟩

/-- The publication of a result after a write cycle has the frame of R120. -/
theorem committed_publish (s : State) (r : EaeReg) (acc : Access) (data : Word) (res : EaeResult) :
    Committed s ((publish res (s.busWrite r data acc)).withReply none) r acc data :=
  committed_commit s r acc data res.ac res.mq res.sc { s.sr with n := res.n, nxv := res.nxv, c := res.c }

/-- The operand an operation is started with is the one of R104. -/
theorem eaeDato_operand (r : EaeReg) (acc : Access) (data : Word) (op : Word → State → State) (s : State) :
    eaeDato r acc data op s = (op (operandAt s r acc data) (s.busWrite r data acc)).withReply none :=
  eaeDato_eq r acc data op s

/-- A bus write changes nothing but one write latch (R102). -/
theorem busWrite_eq (s : State) (r : EaeReg) (data : Word) (acc : Access) :
    s.busWrite r data acc = { s with eaeWL := s.eaeWL.set r (latchAfter s r acc data) } := rfl

/-- V, from the result before the end toggle: the toggle complements N and NXV together (R124). -/
@[simp] theorem endToggle_overflow (b : Bool) (r : EaeResult) :
    ((endToggle b r).n ^^ (endToggle b r).nxv) = (r.n ^^ r.nxv) := by
  cases b <;> simp [endToggle]

@[simp] theorem endToggle_ac (b : Bool) (r : EaeResult) : (endToggle b r).ac = r.ac := rfl
@[simp] theorem endToggle_mq (b : Bool) (r : EaeResult) : (endToggle b r).mq = r.mq := rfl
@[simp] theorem endToggle_sc (b : Bool) (r : EaeResult) : (endToggle b r).sc = r.sc := rfl
@[simp] theorem endToggle_c (b : Bool) (r : EaeResult) : (endToggle b r).c = r.c := rfl
@[simp] theorem endToggle_n (b : Bool) (r : EaeResult) : (endToggle b r).n = (r.n ^^ b) := rfl

end Sys2Proof.Laws
end

