-- ==== Sys2Proof/Laws/PerInstr.lean ====
section
/-! SUPPORT. The family LegalDescriptor: every operation's descriptor is one of the legal ones, outside each of the five reserved classes of
30_encoding.md R77. A lemma per constructor. -/

namespace Sys2Proof.Laws

/-- The five reserved classes of R77, on the descriptor's fields (R70). -/
def reservedClass (d : Desc) : Bool :=
  descKind d = 3
    || (descKind d = 0 && descAcc d = 3)
    || (descKind d = 0 && !descCtl d && descAcc d != 0)
    || (descKind d = 1 && d.extractLsb' 1 6 != 0)
    || (descKind d = 2 && d.extractLsb' 2 5 != 0)

/-- The descriptor of the operation is legal (R77). -/
def LegalDescriptor.Statement (i : Instr) : Prop := reservedClass (encodeDesc i) = false

theorem LegalDescriptor.datiDiv : LegalDescriptor.Statement .datiDiv := rfl
theorem LegalDescriptor.datoWDiv (data : Word) : LegalDescriptor.Statement (.datoWDiv data) := by
  change reservedClass _ = false
  rw [encodeDesc]; decide
theorem LegalDescriptor.datoBLDiv (data : Word) : LegalDescriptor.Statement (.datoBLDiv data) := by
  change reservedClass _ = false
  rw [encodeDesc]; decide
theorem LegalDescriptor.datoBHDiv (data : Word) : LegalDescriptor.Statement (.datoBHDiv data) := by
  change reservedClass _ = false
  rw [encodeDesc]; decide
theorem LegalDescriptor.datiAc : LegalDescriptor.Statement .datiAc := rfl
theorem LegalDescriptor.datoWAc (data : Word) : LegalDescriptor.Statement (.datoWAc data) := by
  change reservedClass _ = false
  rw [encodeDesc]; decide
theorem LegalDescriptor.datoBLAc (data : Word) : LegalDescriptor.Statement (.datoBLAc data) := by
  change reservedClass _ = false
  rw [encodeDesc]; decide
theorem LegalDescriptor.datoBHAc (data : Word) : LegalDescriptor.Statement (.datoBHAc data) := by
  change reservedClass _ = false
  rw [encodeDesc]; decide
theorem LegalDescriptor.datiMq : LegalDescriptor.Statement .datiMq := rfl
theorem LegalDescriptor.datoWMq (data : Word) : LegalDescriptor.Statement (.datoWMq data) := by
  change reservedClass _ = false
  rw [encodeDesc]; decide
theorem LegalDescriptor.datoBLMq (data : Word) : LegalDescriptor.Statement (.datoBLMq data) := by
  change reservedClass _ = false
  rw [encodeDesc]; decide
theorem LegalDescriptor.datoBHMq (data : Word) : LegalDescriptor.Statement (.datoBHMq data) := by
  change reservedClass _ = false
  rw [encodeDesc]; decide
theorem LegalDescriptor.datiMul : LegalDescriptor.Statement .datiMul := rfl
theorem LegalDescriptor.datoWMul (data : Word) : LegalDescriptor.Statement (.datoWMul data) := by
  change reservedClass _ = false
  rw [encodeDesc]; decide
theorem LegalDescriptor.datoBLMul (data : Word) : LegalDescriptor.Statement (.datoBLMul data) := by
  change reservedClass _ = false
  rw [encodeDesc]; decide
theorem LegalDescriptor.datoBHMul (data : Word) : LegalDescriptor.Statement (.datoBHMul data) := by
  change reservedClass _ = false
  rw [encodeDesc]; decide
theorem LegalDescriptor.datiScsr : LegalDescriptor.Statement .datiScsr := rfl
theorem LegalDescriptor.datoWScsr (data : Word) : LegalDescriptor.Statement (.datoWScsr data) := by
  change reservedClass _ = false
  rw [encodeDesc]; decide
theorem LegalDescriptor.datoBLScsr (data : Word) : LegalDescriptor.Statement (.datoBLScsr data) := by
  change reservedClass _ = false
  rw [encodeDesc]; decide
theorem LegalDescriptor.datoBHScsr (data : Word) : LegalDescriptor.Statement (.datoBHScsr data) := by
  change reservedClass _ = false
  rw [encodeDesc]; decide
theorem LegalDescriptor.datiNor : LegalDescriptor.Statement .datiNor := rfl
theorem LegalDescriptor.datoWNor (data : Word) : LegalDescriptor.Statement (.datoWNor data) := by
  change reservedClass _ = false
  rw [encodeDesc]; decide
theorem LegalDescriptor.datoBLNor (data : Word) : LegalDescriptor.Statement (.datoBLNor data) := by
  change reservedClass _ = false
  rw [encodeDesc]; decide
theorem LegalDescriptor.datoBHNor (data : Word) : LegalDescriptor.Statement (.datoBHNor data) := by
  change reservedClass _ = false
  rw [encodeDesc]; decide
theorem LegalDescriptor.datiLsh : LegalDescriptor.Statement .datiLsh := rfl
theorem LegalDescriptor.datoWLsh (data : Word) : LegalDescriptor.Statement (.datoWLsh data) := by
  change reservedClass _ = false
  rw [encodeDesc]; decide
theorem LegalDescriptor.datoBLLsh (data : Word) : LegalDescriptor.Statement (.datoBLLsh data) := by
  change reservedClass _ = false
  rw [encodeDesc]; decide
theorem LegalDescriptor.datoBHLsh (data : Word) : LegalDescriptor.Statement (.datoBHLsh data) := by
  change reservedClass _ = false
  rw [encodeDesc]; decide
theorem LegalDescriptor.datiAsh : LegalDescriptor.Statement .datiAsh := rfl
theorem LegalDescriptor.datoWAsh (data : Word) : LegalDescriptor.Statement (.datoWAsh data) := by
  change reservedClass _ = false
  rw [encodeDesc]; decide
theorem LegalDescriptor.datoBLAsh (data : Word) : LegalDescriptor.Statement (.datoBLAsh data) := by
  change reservedClass _ = false
  rw [encodeDesc]; decide
theorem LegalDescriptor.datoBHAsh (data : Word) : LegalDescriptor.Statement (.datoBHAsh data) := by
  change reservedClass _ = false
  rw [encodeDesc]; decide
theorem LegalDescriptor.datiSer0 : LegalDescriptor.Statement .datiSer0 := rfl
theorem LegalDescriptor.datiSer1 : LegalDescriptor.Statement .datiSer1 := rfl
theorem LegalDescriptor.datiSer2 : LegalDescriptor.Statement .datiSer2 := rfl
theorem LegalDescriptor.datiSer3 : LegalDescriptor.Statement .datiSer3 := rfl
theorem LegalDescriptor.datiSer4 : LegalDescriptor.Statement .datiSer4 := rfl
theorem LegalDescriptor.datiSer5 : LegalDescriptor.Statement .datiSer5 := rfl
theorem LegalDescriptor.datiSer6 : LegalDescriptor.Statement .datiSer6 := rfl
theorem LegalDescriptor.datiSer7 : LegalDescriptor.Statement .datiSer7 := rfl
theorem LegalDescriptor.datoWSer (idx : BitVec 3) (data : Word) : LegalDescriptor.Statement (.datoWSer idx data) := by
  change reservedClass _ = false
  rw [encodeDesc]; revert idx; decide
theorem LegalDescriptor.datoBLSer (idx : BitVec 3) (data : Word) : LegalDescriptor.Statement (.datoBLSer idx data) := by
  change reservedClass _ = false
  rw [encodeDesc]; revert idx; decide
theorem LegalDescriptor.datoBHSer (idx : BitVec 3) (data : Word) : LegalDescriptor.Statement (.datoBHSer idx data) := by
  change reservedClass _ = false
  rw [encodeDesc]; revert idx; decide
theorem LegalDescriptor.enq (char line : Word) (parityErr framingErr overrun : Bool) :
    LegalDescriptor.Statement (.enq char line parityErr framingErr overrun) := by
  change reservedClass _ = false
  rw [encodeDesc]; decide
theorem LegalDescriptor.deq : LegalDescriptor.Statement .deq := rfl
theorem LegalDescriptor.init : LegalDescriptor.Statement .init := rfl
theorem LegalDescriptor.dclo : LegalDescriptor.Statement .dclo := rfl
theorem LegalDescriptor.aclo : LegalDescriptor.Statement .aclo := rfl
theorem LegalDescriptor.initOff : LegalDescriptor.Statement .initOff := rfl

end Sys2Proof.Laws
end

