-- ==== Sys2Proof/Laws/Shift.lean ====
section
/-! SUPPORT. Joining and splitting D (00_scope.md R8), the loop of NOR said once (42_eae_shift_normalize.md R140), and the bits of the
shift operations (R10, R143, R149). -/

namespace Sys2Proof.Laws

open Sys2Proof.Machine Sys2Proof.Safety

/-- A low bit of D is MQ's, a high bit AC's (R8). -/
theorem joinD_bit (a m : Word) (k : Nat) :
    (joinD a m).getLsbD k = if k < 16 then m.getLsbD k else a.getLsbD (k - 16) := by
  rw [joinD, BitVec.getLsbD_append]

@[simp] theorem hiWord_joinD (a m : Word) : hiWord (joinD a m) = a := by
  apply BitVec.eq_of_getLsbD_eq
  intro k hk
  rw [hiWord, BitVec.getLsbD_extractLsb', joinD_bit]
  simp [hk]

@[simp] theorem loWord_joinD (a m : Word) : loWord (joinD a m) = m := by
  apply BitVec.eq_of_getLsbD_eq
  intro k hk
  rw [loWord, BitVec.getLsbD_extractLsb', joinD_bit]
  simp [hk]

@[simp] theorem joinD_split (t : Long) : joinD (hiWord t) (loWord t) = t := by
  apply BitVec.eq_of_getLsbD_eq
  intro k hk
  simp only [hiWord, loWord, joinD, BitVec.getLsbD_append, BitVec.getLsbD_extractLsb']
  by_cases h : k < 16
  · simp [h]
  · simp [h, show k - 16 < 16 by omega, show 16 + (k - 16) = k by omega]

/-- The sign of D is the sign of AC (R12). -/
theorem joinD_sign (a m : Word) : (joinD a m).getLsbD 31 = a.getLsbD 15 := by rw [joinD_bit]; rfl

/-- One round of NOR's loop shifts D left by one place (R140). -/
theorem joinD_shift_one (a m : Word) :
    joinD ((a <<< 1) ||| (if signWord m then 1 else 0)) (m <<< 1) = joinD a m <<< 1 := by
  apply BitVec.eq_of_getLsbD_eq
  intro k hk
  have carry : ∀ n : Nat, (if signWord m then (1 : Word) else 0).getLsbD n = (decide (n = 0) && m.getLsbD 15) := by
    intro n
    unfold signWord
    cases m.getLsbD 15
    · simp
    · by_cases h : n = 0 <;> simp [h, BitVec.getLsbD_one]
  rw [joinD_bit, BitVec.getLsbD_shiftLeft, BitVec.getLsbD_shiftLeft, joinD_bit, BitVec.getLsbD_or, BitVec.getLsbD_shiftLeft, carry]
  rcases Nat.lt_trichotomy k 16 with h | h | h
  · simp [show k - 1 < 16 by omega, hk, h]
  · subst h; rfl
  · simp [show ¬ k < 16 by omega, show ¬ k - 1 < 16 by omega, show ¬ k - 16 = 0 by omega, show k - 16 < 16 by omega,
      show ¬ k - 16 < 1 by omega, hk, show ¬ k < 1 by omega, show k - 16 - 1 = k - 1 - 16 by omega]

/-- The loop's test, at AC and MQ, is the stop at D (R140). -/
theorem norTest_iff_norStops (special a m : Word) :
    ((a = special ∧ m = 0) ∨ a.getLsbD 15 ≠ a.getLsbD 14) ↔ NorStops special (joinD a m) := by
  rw [NorStops, hiWord_joinD, loWord_joinD, joinD_bit, joinD_bit]
  rfl

/-- The loop of NOR: it shifts D left j places, j the first count at which D stops, or the fuel; and it counts them (R140). -/
theorem norLoop_spec (special : Word) (fuel : Nat) (a m : Word) (k : Nat) :
    ∃ j, j ≤ fuel ∧ (norLoop special fuel a m k).2.2 = k + j
      ∧ joinD (norLoop special fuel a m k).1 (norLoop special fuel a m k).2.1 = joinD a m <<< j
      ∧ (∀ i, i < j → ¬ NorStops special (joinD a m <<< i))
      ∧ (j = fuel ∨ NorStops special (joinD a m <<< j)) := by
  induction fuel generalizing a m k with
  | zero => exact ⟨0, Nat.le_refl _, rfl, by simp [norLoop], by simp, .inl rfl⟩
  | succ fuel ih =>
    by_cases h : (a = special ∧ m = 0) ∨ a.getLsbD 15 ≠ a.getLsbD 14
    · refine ⟨0, Nat.zero_le _, ?_, ?_, by simp, .inr ?_⟩
      · rw [norLoop, if_pos h]; rfl
      · rw [norLoop, if_pos h]; simp
      · simpa using (norTest_iff_norStops special a m).mp h
    · obtain ⟨j, hj, hk, hd, hbefore, hstop⟩ := ih ((a <<< 1) ||| (if signWord m then 1 else 0)) (m <<< 1) (k + 1)
      simp only [joinD_shift_one, ← BitVec.shiftLeft_add, Nat.add_comm 1] at hd hbefore hstop
      refine ⟨j + 1, by omega, ?_, ?_, ?_, ?_⟩
      · rw [norLoop, if_neg h, hk]; omega
      · rw [norLoop, if_neg h, hd]
      · intro i hi
        cases i with
        | zero => simpa using fun hs => h ((norTest_iff_norStops special a m).mpr hs)
        | succ i => exact hbefore i (by omega)
      · rcases hstop with hstop | hstop
        · exact .inl (by omega)
        · exact .inr hstop

/-- A bit of the all-equal word (R10). -/
theorem negBit_bit (b : Bool) (k : Nat) (hk : k < 32) : (negBit b).getLsbD k = b := by
  cases b
  · simp [negBit]
  · revert k; decide

/-- A bit of `shl32` (R10). -/
theorem shl32_bit (x : Long) (n k : Nat) (hk : k < 32) :
    (shl32 x n).getLsbD k = (decide (n ≤ k) && x.getLsbD (k - n)) := by
  simp only [shl32, BitVec.getLsbD_shiftLeft, hk, decide_true, Bool.true_and]
  by_cases h : n ≤ k <;> simp [h]

/-- A bit of `lsr32` (R10). -/
theorem lsr32_bit (x : Long) (n k : Nat) : (lsr32 x n).getLsbD k = x.getLsbD (n + k) := by simp [lsr32]

/-- A bit of `asr32` (R10). -/
theorem asr32_bit (x : Long) (n k : Nat) (hk : k < 32) :
    (asr32 x n).getLsbD k = if n + k < 32 then x.getLsbD (n + k) else x.getLsbD 31 := by
  simp only [asr32, BitVec.getLsbD_sshiftRight, Nat.not_le.mpr hk, decide_false, Bool.not_false, Bool.true_and,
    BitVec.msb_eq_getLsbD_last]

end Sys2Proof.Laws
end

