-- ==== Sys2Proof/Laws/Silo.lean ====
section
/-! SUPPORT. The silo's pieces said once: the fill field (44_silo.md R184), the stored entry (R183), the array after a dequeue (R186), the
request of an enqueue (R185, R192). -/

namespace Sys2Proof.Laws

open Sys2Proof.Machine Sys2Proof.Safety

/-- A bit of SSR with its fill field rewritten: bits 13..8 are the count's, the others stay (R184). -/
theorem withFill_bit (v : Word) (n k : Nat) (hk : k < 16) :
    (withFill v n).getLsbD k = if 8 ≤ k ∧ k < 14 then (BitVec.ofNat 16 n).getLsbD (k - 8) else v.getLsbD k := by
  interval_cases k <;> simp [withFill]

/-- Outside the fill field nothing changes (R184). -/
theorem withFill_outside (v : Word) (n : Nat) : withFill v n &&& 0xC0FF = v &&& 0xC0FF := by
  apply BitVec.eq_of_getLsbD_eq
  intro k hk
  rw [BitVec.getLsbD_and, BitVec.getLsbD_and, withFill_bit v n k hk]
  interval_cases k <;> simp

/-- The alarm level is not in the fill field (R184, R185). -/
@[simp] theorem alarmLevel_withFill (v : Word) (n : Nat) : alarmLevel (withFill v n) = alarmLevel v := by
  unfold alarmLevel
  congr 1
  apply BitVec.eq_of_getLsbD_eq
  intro k hk
  rw [BitVec.getLsbD_and, BitVec.getLsbD_and, withFill_bit v n k hk]
  interval_cases k <;> simp

/-- The fill field holds the count modulo 64 (R184). -/
theorem withFill_field (v : Word) (n : Nat) : (withFill v n).toNat / 2 ^ 8 % 2 ^ 6 = n % 2 ^ 6 := by
  have h : (withFill v n).extractLsb' 8 6 = BitVec.ofNat 6 n := by
    apply BitVec.eq_of_getLsbD_eq
    intro k hk
    rw [BitVec.getLsbD_extractLsb', withFill_bit v n (8 + k) (by omega)]
    rw [if_pos (by omega), BitVec.getLsbD_ofNat, BitVec.getLsbD_ofNat]
    simp [show k < 16 by omega, hk]
  simpa [BitVec.extractLsb'_toNat, Nat.shiftRight_eq_div_pow] using congrArg BitVec.toNat h

/-- The alarm level as SSR's low six bits (R185). -/
theorem alarmLevel_eq_alarmField (s : State) : alarmLevel s.ssr = alarmField s := by
  simpa [alarmLevel, alarmField] using Nat.and_two_pow_sub_one_eq_mod s.ssr.toNat 6

/-- The stored entry has the fields of the character (R183). -/
theorem siloEntry_fields (char line : Word) (pe fe ovr : Bool) :
    EntryFields (siloEntry char line pe fe ovr) char line pe fe ovr := by
  refine ⟨?_, ?_, ?_, ?_, ?_, ?_⟩
  · apply BitVec.eq_of_getLsbD_eq
    intro k hk
    match k, hk with
    | 0, _ | 1, _ | 2, _ | 3, _ | 4, _ | 5, _ | 6, _ | 7, _ =>
      cases pe <;> cases fe <;> cases ovr <;> simp [siloEntry, flagBit]
  · apply BitVec.eq_of_getLsbD_eq
    intro k hk
    match k, hk with
    | 0, _ | 1, _ | 2, _ | 3, _ => cases pe <;> cases fe <;> cases ovr <;> simp [siloEntry, flagBit]
  all_goals cases pe <;> cases fe <;> cases ovr <;> simp [siloEntry, flagBit]

/-- A valid slot but the last takes the entry above it (R186). -/
theorem shiftDown_moved (v : Vector Word 64) (n k : Nat) (h : k + 1 < 64) (hn : k + 1 < n) :
    (shiftDown v n)[k] = v[k + 1] := by
  simp [shiftDown, hn, Vector.getD, h]

/-- Every other slot keeps its content (R186, 90_conflicts.md C11). -/
theorem shiftDown_kept (v : Vector Word 64) (n k : Nat) (h : k < 64) (hn : n ≤ k + 1) : (shiftDown v n)[k] = v[k] := by
  simp [shiftDown, Nat.not_lt.mpr hn]

/-- The pending set holds the controller's entry at most once, so one more request changes nothing (60_exceptions.md R215). -/
theorem requestIrq_pending_of_mem {k : IrqKind} {s : State} (h : (s.cfg.serLevel, s.cfg.serSlot) ∈ s.pending) :
    (requestIrq k s).pending = s.pending := by
  simp [requestIrq, h]

/-- A dropped character touches STORAGE_INT, the request and the reply only (R182). -/
theorem dropChar_eq (s : State) :
    dropChar s =
      (if storageEnabled (s.withSsr (setBit s.ssr s.cfg.ssrStorageIntBit)) then
        requestIrq .storage (s.withSsr (setBit s.ssr s.cfg.ssrStorageIntBit))
      else s.withSsr (setBit s.ssr s.cfg.ssrStorageIntBit)).withReply (some (.accepted false)) := rfl

/-- Reading SSR after writing it (10_state.md R38). -/
@[simp] theorem ssr_withSsr (s : State) (v : Word) : (s.withSsr v).ssr = v := by
  simp [State.ssr, State.withSsr, State.serDeviceWrite]

/-- SCR is a register of its own, so a new SSR leaves it (10_state.md R41). -/
theorem scr_withSsr {s : State} (h : s.cfg.serRegmap.scr ≠ s.cfg.serRegmap.ssr) (v : Word) : (s.withSsr v).scr = s.scr := by
  have hne : s.cfg.serRegmap.ssr.val ≠ s.cfg.serRegmap.scr.val := fun e => h (Fin.ext e.symm)
  simp [State.scr, State.withSsr, State.serDeviceWrite, hne]

end Sys2Proof.Laws
end

