-- ==== Sys2Proof/Laws/Step.lean ====
section
/-! SUPPORT. One step and what it delivers (60_exceptions.md R213 to R215), and the descriptors the address decode forms (30_encoding.md
R70, R71). -/

namespace Sys2Proof.Laws

open Sys2Proof.Machine

/-- With no input a step changes nothing (log 11). -/
theorem step_of_no_input {s : State} (h : s.inputs = []) : step s = .next s := by simp [step, h]

/-- With an input a step delivers it, the rest staying pending (20_memory.md R63). -/
theorem step_of_input {s : State} {inp : Input} {rest : List Input} (h : s.inputs = inp :: rest) :
    step s = deliver inp { s with inputs := rest } := by simp [step, h]

/-- A legal event runs the decoded operation. -/
theorem runEvent_ok {d : Desc} {o : EventOperands} {i : Instr} (h : decode d o = .ok i) (s : State) :
    runEvent d o s = exec i s := by simp [runEvent, h]

/-- A reserved descriptor is refused by name (R77). -/
theorem runEvent_error {d : Desc} {o : EventOperands} {why : Reserved} (h : decode d o = .error why) (s : State) :
    runEvent d o s = .refused (.reservedDescriptor why) := by simp [runEvent, h]

@[simp] theorem deliver_event (d : Desc) (o : EventOperands) (s : State) : deliver (.event d o) s = runEvent d o s := rfl

@[simp] theorem deliver_irqRemoved (level slot : Nat) (s : State) :
    deliver (.irqRemoved level slot) s = .next { s with pending := s.pending.erase (level, slot) } := rfl

/-- What a bus cycle becomes (20_memory.md R51, R55). -/
theorem deliver_cycle (a : Nat) (cy : BusCycle) (s : State) :
    deliver (.cycle a cy) s =
      match routeCycle s.cfg a cy with
      | .unseen => .next s
      | .odd => .refused .oddWordCycle
      | .delivered d o => runEvent d o s := rfl

/-- A step answers a next state only in these ways: nothing was pending; a removal from the pending set; a cycle the block does not see;
or one decoded operation ran. -/
theorem step_next_cases {s t : State} (h : step s = .next t) :
    (s.inputs = [] ∧ t = s)
    ∨ ∃ inp rest, s.inputs = inp :: rest ∧
      ((∃ level slot, inp = .irqRemoved level slot
          ∧ t = { s with inputs := rest, pending := s.pending.erase (level, slot) })
        ∨ (∃ a cy, inp = .cycle a cy ∧ routeCycle s.cfg a cy = .unseen ∧ t = { s with inputs := rest })
        ∨ ∃ i, exec i { s with inputs := rest } = .next t) := by
  cases hin : s.inputs with
  | nil =>
    rw [step_of_no_input hin] at h
    exact .inl ⟨rfl, by simpa using h.symm⟩
  | cons inp rest =>
    rw [step_of_input hin] at h
    refine .inr ⟨inp, rest, rfl, ?_⟩
    have ran : ∀ d o, runEvent d o { s with inputs := rest } = .next t → ∃ i, exec i { s with inputs := rest } = .next t := by
      intro d o hr
      cases hd : decode d o with
      | ok i => exact ⟨i, by rwa [runEvent_ok hd] at hr⟩
      | error why => rw [runEvent_error hd] at hr; cases hr
    cases inp with
    | event d o => exact .inr (.inr (ran d o h))
    | irqRemoved level slot => exact .inl ⟨level, slot, rfl, by simpa using h.symm⟩
    | cycle a cy =>
      rw [deliver_cycle] at h
      cases hr : routeCycle s.cfg a cy with
      | unseen => simp only [hr] at h; exact .inr (.inl ⟨a, cy, rfl, hr, by simpa using h.symm⟩)
      | odd => simp only [hr] at h; cases h
      | delivered d o => simp only [hr] at h; exact .inr (.inr (ran d o h))

/-- The descriptor of a word read (R70). -/
theorem cycleDesc_dati (i : BitVec 3) :
    cycleDesc false .word false i = 0x000 + i.setWidth 9 ∧ cycleDesc true .word false i = 0x040 + i.setWidth 9 := by
  revert i; decide

/-- The descriptors of the writes of an EAE register (R70, R74). -/
theorem cycleDesc_eae (i : BitVec 3) :
    cycleDesc false .word true i = 0x008 + i.setWidth 9 ∧ cycleDesc false .bytel true i = 0x018 + i.setWidth 9
      ∧ cycleDesc false .byteh true i = 0x028 + i.setWidth 9 := by
  revert i; decide

/-- The descriptors of the writes of a serial register (R70, R75). -/
theorem cycleDesc_ser (i : BitVec 3) :
    cycleDesc true .word true i = 0x048 + i.setWidth 9 ∧ cycleDesc true .bytel true i = 0x058 + i.setWidth 9
      ∧ cycleDesc true .byteh true i = 0x068 + i.setWidth 9 := by
  revert i; decide

end Sys2Proof.Laws
end

