-- ==== Sys2Proof/Laws/Windows.lean ====
section
/-! SUPPORT. Windows and the address decode (20_memory.md R50, R51, R57): what it is to hold an address, to meet, to select a register. -/

namespace Sys2Proof.Laws

open Sys2Proof.Machine

@[simp] theorem eaeWindow_base (c : Config) : c.eaeWindow.base = c.eaeBase := rfl
@[simp] theorem eaeWindow_bytes (c : Config) : c.eaeWindow.bytes = 2 * c.eaeRegs := rfl
@[simp] theorem serWindow_base (c : Config) : c.serWindow.base = c.serBase := rfl
@[simp] theorem serWindow_bytes (c : Config) : c.serWindow.bytes = 2 * c.serRegs := rfl
@[simp] theorem deviceWindow_base (c : Config) (d : Device) (b : Nat) : (deviceWindow c d b).base = b := by cases d <;> rfl
@[simp] theorem deviceWindow_at_deviceBase (c : Config) (d : Device) :
    deviceWindow c d (deviceBase c d) = match d with | .eae => c.eaeWindow | .ser => c.serWindow := by cases d <;> rfl

/-- A window holds its addresses (R51). -/
@[simp] theorem holds_iff {w : Window} {a : Nat} : w.holds a = true ↔ w.base ≤ a ∧ a < w.base + w.bytes := by
  simp [Window.holds]

/-- Two windows meet (R57). -/
@[simp] theorem meets_iff {u v : Window} : u.meets v = true ↔ u.base < v.base + v.bytes ∧ v.base < u.base + u.bytes := by
  simp [Window.meets]

/-- A window does not hold the addresses below and past it (R51). -/
@[simp] theorem holds_eq_false_iff {w : Window} {a : Nat} : w.holds a = false ↔ a < w.base ∨ w.base + w.bytes ≤ a := by
  rw [Bool.eq_false_iff, Ne, holds_iff]; omega

/-- Two windows do not meet when one ends before the other begins (R57). -/
@[simp] theorem meets_eq_false_iff {u v : Window} :
    u.meets v = false ↔ v.base + v.bytes ≤ u.base ∨ u.base + u.bytes ≤ v.base := by
  rw [Bool.eq_false_iff, Ne, meets_iff]; omega

/-- The bus carries the addresses of its width (R50). -/
@[simp] theorem onBus_iff {c : Config} {a : Nat} : c.onBus a = true ↔ a < 2 ^ c.busAddrWidth := by
  simp [Config.onBus]

/-- A window is placed at an even base and inside the address space (R50, R55). -/
@[simp] theorem placed_iff {c : Config} {w : Window} :
    c.placed w = true ↔ w.base % 2 = 0 ∧ w.base + w.bytes ≤ 2 ^ c.busAddrWidth := by
  simp [Config.placed]

/-- Windows that do not meet share no address (R57). -/
theorem not_holds_of_not_meets {u v : Window} (h : u.meets v = false) {a : Nat} (hu : u.holds a = true) : v.holds a = false := by
  simp only [meets_eq_false_iff, holds_iff, holds_eq_false_iff] at *
  omega

/-- A window gives an index exactly to the addresses it holds (R51). -/
theorem windowIndex_eq_some {w : Window} {a : Nat} {i : BitVec 3} :
    windowIndex w a = some i ↔ w.holds a = true ∧ BitVec.ofNat 3 ((a - w.base) / 2) = i := by
  unfold windowIndex
  split <;> simp [*]

/-- An address outside a window has no index in it (R51). -/
theorem windowIndex_eq_none {w : Window} {a : Nat} : windowIndex w a = none ↔ w.holds a = false := by
  unfold windowIndex
  split <;> simp [*]

/-- No register is addressed exactly when each device is disabled, or the bus cannot carry the address, or the device's window does not
hold it (R51, R57). -/
theorem addressed_eq_none {c : Config} {a : Nat} :
    addressed c a = none ↔
      ¬ (c.eaeEnabled = true ∧ c.onBus a = true ∧ c.eaeWindow.holds a = true)
        ∧ ¬ (c.serEnabled = true ∧ c.onBus a = true ∧ c.serWindow.holds a = true) := by
  unfold addressed windowIndex
  cases c.eaeEnabled <;> cases c.serEnabled <;> cases c.onBus a <;> cases c.eaeWindow.holds a <;>
    cases c.serWindow.holds a <;> simp

end Sys2Proof.Laws
end

