-- ==== Sys2Proof/Tests/Slice0.lean ====
section
/-! SUPPORT. The package's own tests, each one step on a small state: ill-formed operations, descriptors written out from the encoding of
30_encoding.md R70 (kind, blk, acc, ctl, idx), results the spec works out in 95_test_vectors.md (the vector's id is named) or that follow from
its rules by hand, and one witness per statement with hypotheses, at the boundaries of its clauses. -/

namespace Sys2Proof.Tests

open Sys2Proof.Machine Sys2Proof.Safety

/-! ## Well-formedness: an ill-formed term for each check -/

theorem test_wf_char_of_nine_bits_refused : (Instr.enq 0x1FF 0 false false false).wellFormed = false := by decide
theorem test_wf_line_of_five_bits_refused : (Instr.enq 0 31 false false false).wellFormed = false := by decide
theorem test_wf_widest_char_and_line_accepted : (Instr.enq 0xFF 15 true true true).wellFormed = true := by decide

/-! ## Helpers -/

/-- A field of the next state, if there is one. -/
def got {α : Type} (r : Result) (f : State → α) : Option α :=
  match r with
  | .next t => some (f t)
  | .fault _ => none
  | .refused _ => none

/-- AC, MQ and the SCSR word of the next state. -/
def eaeAfter (r : Result) : Option (Word × Word × Word) :=
  got r fun t => (t.ac, t.mq, scsrWord t.cfg.srLayout t.sr t.sc)

/-- What the event returned. -/
def replyOf (r : Result) : Option Reply := (got r (·.reply)).join

/-- Why the event was refused. -/
def refusalOf (r : Result) : Option Refusal :=
  match r with
  | .refused why => some why
  | .next _ => none
  | .fault _ => none

/-- The state after `LOAD32 ac, mq` from reset (R79), as data. -/
def loaded (ac mq : Word) : State :=
  { State.reset with
    ac := ac
    mq := mq
    eaeRL := { EaeLatches.fill 0 with ac := ac, mq := mq }
    eaeWL := { EaeLatches.fill 0 with ac := ac, mq := mq } }

/-- The same with a write latch holding an earlier word. -/
def loadedLatch (ac mq : Word) (r : EaeReg) (w : Word) : State := (loaded ac mq).busWrite r w .word

/-- A silo of `n` entries 0x8000 + index, with SSR and SCR as given (default register map). -/
def siloState (n : Nat) (ssr scr : Word) : State :=
  { State.reset with
    silo := Vector.ofFn fun i => 0x8000 + BitVec.ofNat 16 i.val
    count := n
    serRL := #v[scr, 0, 0x22, 0x33, 0x44, 0x55, 0x66, ssr] }

/-- Reset with one bus cycle pending. -/
def busState (a : Nat) (cy : BusCycle) : State := { State.reset with inputs := [.cycle a cy] }

/-- Reset with one event pending. -/
def eventState (d : Desc) (o : EventOperands) : State := { State.reset with inputs := [.event d o] }

/-! ## Decoding: descriptors written out field by field (R70, R74 to R76) -/

theorem test_decode_div :
    decode 0b00_0_00_0_000 .zero = .ok .datiDiv ∧ decode 0b00_0_00_1_000 (.ofData 0xA55A) = .ok (.datoWDiv 0xA55A)
      ∧ decode 0b00_0_01_1_000 (.ofData 0xA55A) = .ok (.datoBLDiv 0xA55A)
      ∧ decode 0b00_0_10_1_000 (.ofData 0xA55A) = .ok (.datoBHDiv 0xA55A) := by decide
theorem test_decode_ac :
    decode 0b00_0_00_0_001 .zero = .ok .datiAc ∧ decode 0b00_0_00_1_001 (.ofData 0xA55A) = .ok (.datoWAc 0xA55A)
      ∧ decode 0b00_0_01_1_001 (.ofData 0xA55A) = .ok (.datoBLAc 0xA55A)
      ∧ decode 0b00_0_10_1_001 (.ofData 0xA55A) = .ok (.datoBHAc 0xA55A) := by decide
theorem test_decode_mq :
    decode 0b00_0_00_0_010 .zero = .ok .datiMq ∧ decode 0b00_0_00_1_010 (.ofData 0xA55A) = .ok (.datoWMq 0xA55A)
      ∧ decode 0b00_0_01_1_010 (.ofData 0xA55A) = .ok (.datoBLMq 0xA55A)
      ∧ decode 0b00_0_10_1_010 (.ofData 0xA55A) = .ok (.datoBHMq 0xA55A) := by decide
theorem test_decode_mul :
    decode 0b00_0_00_0_011 .zero = .ok .datiMul ∧ decode 0b00_0_00_1_011 (.ofData 0xA55A) = .ok (.datoWMul 0xA55A)
      ∧ decode 0b00_0_01_1_011 (.ofData 0xA55A) = .ok (.datoBLMul 0xA55A)
      ∧ decode 0b00_0_10_1_011 (.ofData 0xA55A) = .ok (.datoBHMul 0xA55A) := by decide
theorem test_decode_scsr :
    decode 0b00_0_00_0_100 .zero = .ok .datiScsr ∧ decode 0b00_0_00_1_100 (.ofData 0xA55A) = .ok (.datoWScsr 0xA55A)
      ∧ decode 0b00_0_01_1_100 (.ofData 0xA55A) = .ok (.datoBLScsr 0xA55A)
      ∧ decode 0b00_0_10_1_100 (.ofData 0xA55A) = .ok (.datoBHScsr 0xA55A) := by decide
theorem test_decode_nor :
    decode 0b00_0_00_0_101 .zero = .ok .datiNor ∧ decode 0b00_0_00_1_101 (.ofData 0xA55A) = .ok (.datoWNor 0xA55A)
      ∧ decode 0b00_0_01_1_101 (.ofData 0xA55A) = .ok (.datoBLNor 0xA55A)
      ∧ decode 0b00_0_10_1_101 (.ofData 0xA55A) = .ok (.datoBHNor 0xA55A) := by decide
theorem test_decode_lsh :
    decode 0b00_0_00_0_110 .zero = .ok .datiLsh ∧ decode 0b00_0_00_1_110 (.ofData 0xA55A) = .ok (.datoWLsh 0xA55A)
      ∧ decode 0b00_0_01_1_110 (.ofData 0xA55A) = .ok (.datoBLLsh 0xA55A)
      ∧ decode 0b00_0_10_1_110 (.ofData 0xA55A) = .ok (.datoBHLsh 0xA55A) := by decide
theorem test_decode_ash :
    decode 0b00_0_00_0_111 .zero = .ok .datiAsh ∧ decode 0b00_0_00_1_111 (.ofData 0xA55A) = .ok (.datoWAsh 0xA55A)
      ∧ decode 0b00_0_01_1_111 (.ofData 0xA55A) = .ok (.datoBLAsh 0xA55A)
      ∧ decode 0b00_0_10_1_111 (.ofData 0xA55A) = .ok (.datoBHAsh 0xA55A) := by decide
theorem test_decode_serial_reads :
    decode 0b00_1_00_0_000 .zero = .ok .datiSer0 ∧ decode 0b00_1_00_0_001 .zero = .ok .datiSer1
      ∧ decode 0b00_1_00_0_010 .zero = .ok .datiSer2 ∧ decode 0b00_1_00_0_011 .zero = .ok .datiSer3
      ∧ decode 0b00_1_00_0_100 .zero = .ok .datiSer4 ∧ decode 0b00_1_00_0_101 .zero = .ok .datiSer5
      ∧ decode 0b00_1_00_0_110 .zero = .ok .datiSer6 ∧ decode 0b00_1_00_0_111 .zero = .ok .datiSer7 := by decide
theorem test_decode_serial_writes :
    decode 0b00_1_00_1_101 (.ofData 0xA55A) = .ok (.datoWSer 5 0xA55A)
      ∧ decode 0b00_1_01_1_010 (.ofData 0xA55A) = .ok (.datoBLSer 2 0xA55A)
      ∧ decode 0b00_1_10_1_111 (.ofData 0xA55A) = .ok (.datoBHSer 7 0xA55A) := by decide
theorem test_decode_port_events :
    decode 0b01_0_00_0_000 ⟨0, 0x41, 3, false, true, false⟩ = .ok (.enq 0x41 3 false true false)
      ∧ decode 0b01_0_00_0_001 .zero = .ok .deq := by decide
theorem test_decode_signals :
    decode 0b10_0_00_0_000 .zero = .ok .init ∧ decode 0b10_0_00_0_001 .zero = .ok .dclo
      ∧ decode 0b10_0_00_0_010 .zero = .ok .aclo ∧ decode 0b10_0_00_0_011 .zero = .ok .initOff := by decide
theorem test_decode_table_word : decodeTableWord 16 0x00D = some (.datoWNor 0) ∧ decodeTableWord 16 0x180 = none := by decide

/-! ## The step and the bus -/

/-- RF1 to RF5: one descriptor of each reserved class. -/
theorem test_reserved_descriptors_refused :
    refusalOf (step (eventState 0x180 .zero)) = some (.reservedDescriptor .kind)
      ∧ refusalOf (step (eventState 0x038 .zero)) = some (.reservedDescriptor .acc)
      ∧ refusalOf (step (eventState 0x011 .zero)) = some (.reservedDescriptor .datiAccess)
      ∧ refusalOf (step (eventState 0x082 .zero)) = some (.reservedDescriptor .port)
      ∧ refusalOf (step (eventState 0x104 .zero)) = some (.reservedDescriptor .signal) := by decide
/-- RF6 and RF9: an odd word cycle in the window, and a cycle just past it. -/
theorem test_odd_word_cycle_refused : refusalOf (step (busState 0o777303 .dati)) = some .oddWordCycle := by decide
theorem test_cycle_past_the_window_unseen :
    got (step (busState 0o777320 .dati)) id = some State.reset := by decide
/-- The register count and the bus width are parameters (R6): a window of one register ends at its second byte, and on a bus of 17 bits
no cycle reaches 0o777300. -/
theorem test_register_count_and_bus_width_are_read :
    let on (c : Config) (a : Nat) := routeCycle c a .dati
    on { defaultConfig with eaeRegs := 1 } 0o777300 = .delivered 0x000 .zero
      ∧ on { defaultConfig with eaeRegs := 1 } 0o777302 = .unseen
      ∧ on { defaultConfig with busAddrWidth := 17 } 0o777300 = .unseen := by decide
/-- RF7: an enqueue while INIT is asserted. -/
theorem test_event_during_init_refused :
    refusalOf (exec (.enq 0x41 0 false false false) { State.reset with initAsserted := true }) = some .cycleDuringInit := by decide
/-- P1 line 4, through the address 0o777300 (R51, R71). -/
theorem test_bus_write_reaches_div :
    eaeAfter (step { loaded 0xFFFF 0xFF9C with inputs := [.cycle 0o777300 (.datoWord 7)] })
      = some (0xFFFE, 0xFFF2, 0xC000) := by decide
/-- P4 line 7: a byte write at the odd address 0o777307 is a high-byte write of MUL (R52). -/
theorem test_odd_byte_write_is_the_high_byte :
    eaeAfter (step { loadedLatch 0 2 .mul 0x1285 with inputs := [.cycle 0o777307 (.datoByte 0x0300)] })
      = some (0x0000, 0x070A, 0x1200) := by decide

/-! ## MUL and DIV (vectors M and DV) -/

/-- M2, E2. -/
theorem test_mul_word_negative : eaeAfter (exec (.datoWMul 0xFFFD) (loaded 0 3)) = some (0xFFFF, 0xFFF7, 0xE200) := by decide
/-- M4. -/
theorem test_mul_word_most_negative :
    eaeAfter (exec (.datoWMul 0x7FFF) (loaded 0 0x8000))
      = some (0xC000, 0x8000, 0xC000) := by decide
/-- M11. -/
theorem test_mul_low_byte_sign_extends :
    eaeAfter (exec (.datoBLMul 0x0085) (loadedLatch 0 2 .mul 0x1234))
      = some (0xFFFF, 0xFF0A, 0xE200) := by decide
/-- M12. -/
theorem test_mul_low_byte_merges :
    eaeAfter (exec (.datoBLMul 0x0005) (loadedLatch 0 2 .mul 0x1234))
      = some (0x0000, 0x240A, 0x1200) := by decide
/-- M13. -/
theorem test_mul_high_byte_merges :
    eaeAfter (exec (.datoBHMul 0x0300) (loadedLatch 0 2 .mul 0x1234))
      = some (0x0000, 0x0668, 0x1200) := by decide
/-- DV2. -/
theorem test_div_word_negative :
    eaeAfter (exec (.datoWDiv 7) (loaded 0xFFFF 0xFF9C))
      = some (0xFFFE, 0xFFF2, 0xC000) := by decide
/-- DV16: the fail path, NXV 0 after the toggle. -/
theorem test_div_word_by_zero :
    eaeAfter (exec (.datoWDiv 0) (loaded 0xFFFF 0xFFFB))
      = some (0xFFFF, 0xFFF6, 0x620F) := by decide
/-- By hand: the operand 0x85 sign-extends to -123, and 246 / -123 = -2 r 0. -/
theorem test_div_low_byte :
    eaeAfter (exec (.datoBLDiv 0x0085) (loadedLatch 0 246 .div 0x0100))
      = some (0x0000, 0xFFFE, 0xD000) := by decide
/-- DV1, the 7 already in the latch. -/
theorem test_div_high_byte :
    eaeAfter (exec (.datoBHDiv 0x0000) (loadedLatch 0 100 .div 0x5507))
      = some (0x0002, 0x000E, 0x0000) := by decide

/-! ## NOR, LSH and ASH (vectors NR, L and A) -/

/-- NR13. -/
theorem test_nor_word_shifts_mq_in :
    eaeAfter (exec (.datoWNor 0) (loaded 0xF000 0x1234))
      = some (0x8000, 0x91A0, 0xC003) := by decide
/-- NR3. -/
theorem test_nor_word_minus_one :
    eaeAfter (exec (.datoWNor 0x5555) (loaded 0xFFFF 0xFFFF))
      = some (0x8000, 0x0000, 0xC81F) := by decide
/-- NR7. -/
theorem test_nor_low_byte : eaeAfter (exec (.datoBLNor 0x00FF) (loaded 0 1)) = some (0x4000, 0x0000, 0x081E) := by decide
/-- NR4: nothing to shift, SC becomes 0. -/
theorem test_nor_high_byte :
    eaeAfter (exec (.datoBHNor 0xFF00) ({ loaded 0x4000 0 with sc := 9 }))
      = some (0x4000, 0x0000, 0x0800) := by decide
/-- NR10 under NOR_SPECIAL_AC = 0xC000 (93 G8). -/
theorem test_nor_alternative_stop :
    eaeAfter (exec (.datoBHNor 0) ({ loaded 0xC000 0 with cfg := { defaultConfig with norSpecialAc := 0xC000 } }))
      = some (0xC000, 0x0000, 0xC800) := by decide
/-- L10. -/
theorem test_lsh_word_left : eaeAfter (exec (.datoWLsh 4) (loaded 0xF000 0)) = some (0x0000, 0x0000, 0x9F00) := by decide
/-- L20. -/
theorem test_lsh_word_right_32 :
    eaeAfter (exec (.datoWLsh 0x20) (loaded 0xFFFF 0xFFFF))
      = some (0x0000, 0x0000, 0x1F00) := by decide
/-- L1: only the low six bits of 0xC4 count (R142). -/
theorem test_lsh_low_byte : eaeAfter (exec (.datoBLLsh 0x00C4) (loaded 0x029C 0)) = some (0x29C0, 0x0000, 0x0800) := by decide
/-- L17: the latch already holds the code 63. -/
theorem test_lsh_high_byte :
    eaeAfter (exec (.datoBHLsh 0xAB00) (loadedLatch 0xFFFF 0xFFF7 .lsh 0x003F))
      = some (0x7FFF, 0xFFFB, 0x0100) := by decide
/-- A7. -/
theorem test_ash_word_left_overflow :
    eaeAfter (exec (.datoWAsh 1) (loaded 0x8000 1))
      = some (0x8000, 0x0002, 0x4000) := by decide
/-- A16. -/
theorem test_ash_word_right :
    eaeAfter (exec (.datoWAsh 0o77) (loaded 0xFFFF 0xFFF7))
      = some (0xFFFF, 0xFFFB, 0xE300) := by decide
/-- A20. -/
theorem test_ash_low_byte : eaeAfter (exec (.datoBLAsh 0x0020) (loaded 0x8000 0)) = some (0xFFFF, 0xFFFF, 0xE300) := by decide
/-- A3: the latch already holds the code 31. -/
theorem test_ash_high_byte :
    eaeAfter (exec (.datoBHAsh 0xAB00) (loadedLatch 0 1 .ash 0x001F))
      = some (0x0000, 0x0000, 0x9F00) := by decide

/-! ## Loading writes and reads (vectors RA and S) -/

/-- RA1. -/
theorem test_ac_word : eaeAfter (exec (.datoWAc 0xFFFF) (loaded 0 0x8000)) = some (0xFFFF, 0x8000, 0x2200) := by decide
/-- RA2. -/
theorem test_ac_low_byte : eaeAfter (exec (.datoBLAc 0x0080) (loaded 0 0)) = some (0xFF80, 0x0000, 0x0800) := by decide
/-- RA3: the low byte is the latch's 0x00, not the 0xFF of AC. -/
theorem test_ac_high_byte :
    eaeAfter (exec (.datoBHAc 0x2200) ({ loadedLatch 0xFFFF 0xFFFF .ac 0x0100 with sr := ⟨true, true, false, false, false, true, true, false⟩ }))
      = some (0x2200, 0xFFFF, 0xC000) := by decide
/-- RA4. -/
theorem test_mq_word : eaeAfter (exec (.datoWMq 0o177634) (loaded 0 0)) = some (0xFFFF, 0xFF9C, 0x2200) := by decide
/-- RA5. -/
theorem test_mq_low_byte : eaeAfter (exec (.datoBLMq 0x0080) (loaded 0 0)) = some (0xFFFF, 0xFF80, 0x2200) := by decide
/-- RA6. -/
theorem test_mq_high_byte : eaeAfter (exec (.datoBHMq 0x8000) (loaded 0 0x0012)) = some (0xFFFF, 0x8012, 0x2200) := by decide
/-- RA7. -/
theorem test_scsr_word : eaeAfter (exec (.datoWScsr 0x81FF) (loaded 0 0)) = some (0x0000, 0x0000, 0x9F3F) := by decide
/-- RA8. -/
theorem test_scsr_word_keeps_no_dynamic_bit :
    eaeAfter (exec (.datoWScsr 0xFFFF) (loaded 0x1234 0x5678))
      = some (0x1234, 0x5678, 0xC13F) := by decide
/-- RA9. -/
theorem test_scsr_low_byte_ignored :
    eaeAfter (exec (.datoBLScsr 0x003F) ({ loaded 0x1234 0x5678 with sc := 5 }))
      = some (0x1234, 0x5678, 0x0005) := by decide
/-- RA9. -/
theorem test_scsr_high_byte_ignored :
    eaeAfter (exec (.datoBHScsr 0xFF00) ({ loaded 0x1234 0x5678 with sc := 5 }))
      = some (0x1234, 0x5678, 0x0005) := by decide
/-- RA14. -/
theorem test_read_scsr_after_reset : replyOf (exec .datiScsr (State.reset)) = some (.word 0x1E00) := by decide
/-- S3. -/
theorem test_read_scsr_of_a_negative_mq : replyOf (exec .datiScsr (loaded 0 0x8000)) = some (.word 0x1000) := by decide
/-- RA10: NOR reads as SC. -/
theorem test_read_nor : replyOf (exec .datiNor ({ loaded 0 7 with sc := 37 })) = some (.word 37) := by decide
/-- RA12: the accumulator, not the write latch. -/
theorem test_read_ac : replyOf (exec .datiAc (loadedLatch 0xFFFF 0x8000 .ac 0x0001)) = some (.word 0xFFFF) := by decide
/-- RA12. -/
theorem test_read_mq : replyOf (exec .datiMq (loadedLatch 0xFFFF 0x8000 .mq 0x0001)) = some (.word 0x8000) := by decide
/-- RA11. -/
theorem test_read_div_is_zero : replyOf (exec .datiDiv (loadedLatch 1 2 .div 7)) = some (.word 0) := by decide
/-- RA11. -/
theorem test_read_mul_is_zero : replyOf (exec .datiMul (loadedLatch 1 2 .mul 5)) = some (.word 0) := by decide
/-- RA11. -/
theorem test_read_lsh_is_zero : replyOf (exec .datiLsh (loadedLatch 1 2 .lsh 4)) = some (.word 0) := by decide
/-- RA11. -/
theorem test_read_ash_is_zero : replyOf (exec .datiAsh (loadedLatch 1 2 .ash 0o77)) = some (.word 0) := by decide

/-! ## The silo and the serial registers (vectors SE, SQ, programs P5 and P6) -/

/-- SE1. -/
theorem test_enqueue_stores_the_entry :
    got (exec (.enq 0x41 3 false true false) State.reset) (fun t => (t.silo[0], t.count, t.ssr, t.reply, t.irqLog))
      = some (0xA341, 1, 0x0100, some (.accepted true), []) := by decide
/-- SQ7: a drop on a full silo sets STORAGE_INT and requests the storage interrupt. -/
theorem test_enqueue_on_a_full_silo :
    got (exec (.enq 0x99 0 false false false) (siloState 64 0 0x1000)) (fun t => (t.count, t.ssr, t.reply, t.irqLog))
      = some (64, 0x4000, some (.accepted false), [⟨.storage, 0o340, 5, 31⟩]) := by decide
/-- SQ5: the fill field is 63, STORAGE_INT stays, and the half-open shift keeps the last slot (C11). -/
theorem test_dequeue_of_a_full_silo :
    got (exec .deq (siloState 64 0x4000 0)) (fun t => (t.reply, t.count, t.ssr, t.silo[0], t.silo[62], t.silo[63]))
      = some (some (.word 0x8000), 63, 0x7F00, 0x8001, 0x803F, 0x803F) := by decide
/-- SQ1: an empty dequeue returns the stale entry with bit 15 clear (R187). -/
theorem test_dequeue_of_an_empty_silo :
    got (exec .deq { siloState 0 0 0 with silo := Vector.replicate 64 0xA341 }) (fun t => (t.reply, t.count, t.ssr, t.serRL[1]))
      = some (some (.word 0x2341), 0, 0x0000, 0x2341) := by decide
/-- P5 line 9: the DATI of the dequeue register dequeues. -/
theorem test_read_dequeue_register :
    got (exec .datiSer1 (siloState 3 0x0302 0x0040)) (fun t => (t.reply, t.count, t.ssr, t.serRL[1], t.irqLog))
      = some (some (.word 0x8000), 2, 0x0202, 0x8000, []) := by decide

/-- R190: SCR. -/
theorem test_read_serial_0 : replyOf (exec .datiSer0 (siloState 3 0x0302 0x0040)) = some (.word 0x0040) := by decide
/-- R190. -/
theorem test_read_serial_2 : replyOf (exec .datiSer2 (siloState 3 0x0302 0x0040)) = some (.word 0x22) := by decide
/-- R190. -/
theorem test_read_serial_3 : replyOf (exec .datiSer3 (siloState 3 0x0302 0x0040)) = some (.word 0x33) := by decide
/-- R190. -/
theorem test_read_serial_4 : replyOf (exec .datiSer4 (siloState 3 0x0302 0x0040)) = some (.word 0x44) := by decide
/-- R190. -/
theorem test_read_serial_5 : replyOf (exec .datiSer5 (siloState 3 0x0302 0x0040)) = some (.word 0x55) := by decide
/-- R190. -/
theorem test_read_serial_6 : replyOf (exec .datiSer6 (siloState 3 0x0302 0x0040)) = some (.word 0x66) := by decide
/-- P5 line 8. -/
theorem test_read_serial_7 : replyOf (exec .datiSer7 (siloState 3 0x0302 0x0040)) = some (.word 0x0302) := by decide
/-- P6 line 8: only the alarm level of SSR is writable, and the fill field stays the count's. -/
theorem test_serial_word_write :
    got (exec (.datoWSer 7 0xFFFF) (siloState 63 0x7F00 0)) (fun t => (t.ssr, t.serWL[7])) = some (0x7F3F, 0x003F) := by decide
/-- SQ6: a write to the dequeue register changes nothing. -/
theorem test_serial_write_to_dequeue_register :
    got (exec (.datoWSer 1 0x1234) (siloState 1 0x0100 0)) (fun t => (t.serRL[1], t.count, t.ssr)) = some (0, 1, 0x0100) := by decide
/-- By R191: the low byte of register 2 (all bits writable) is replaced. -/
theorem test_serial_low_byte_write :
    got (exec (.datoBLSer 2 0xFFAB) (siloState 1 0x0100 0)) (fun t => (t.serRL[2], t.serWL[2])) = some (0x00AB, 0x00AB) := by decide
/-- SQ6: no bit of SSR's high byte is writable. -/
theorem test_serial_high_byte_write :
    got (exec (.datoBHSer 7 0x3F00) (siloState 1 0x013F 0)) (fun t => (t.ssr, t.serWL[7])) = some (0x013F, 0x0000) := by decide
/-- P5 line 7: the third character exceeds the alarm level 2. -/
theorem test_alarm_above_the_level :
    got (step { siloState 2 0x0202 0x0040 with inputs := [.event 0x080 ⟨0, 0x43, 2, true, false, false⟩] })
      (fun t => (t.silo[2], t.ssr, t.irqLog)) = some (0x9243, 0x0302, [⟨.alarm, 0o340, 5, 31⟩]) := by decide

/-! ## Signals (E8, RF8) -/

/-- E8. -/
theorem test_init_resets :
    got (exec .init { siloState 5 0x0507 0x1040 with ac := 1, carLine := Vector.replicate 16 7, lprLine := Vector.replicate 16 9 })
      (fun t => (t.ac, t.count, t.ssr, t.silo[4], t.carLine[3], t.lprLine[3]))
      = some (0, 0, 0, 0x8004, 7, 0) := by decide
/-- RF8: DCLO is admitted while INIT is asserted, and leaves it so. -/
theorem test_dclo_resets :
    got (exec .dclo { siloState 5 0x0507 0x1040 with initAsserted := true, mq := 3 })
      (fun t => (t.mq, t.count, t.ssr, t.silo[4], t.initAsserted)) = some (0, 0, 0, 0x8004, true) := by decide
theorem test_aclo_changes_nothing :
    got (exec .aclo (siloState 5 0x0507 0x1040)) id
      = some (siloState 5 0x0507 0x1040) := by decide
theorem test_init_off_ends_the_interval :
    got (exec .initOff { State.reset with initAsserted := true }) id = some State.reset := by decide

/-! ## Witnesses: states and operands that meet the hypotheses of each statement, at the boundaries of its clauses -/

theorem witness_DecodeAfterEncodeIsIdentity : (Instr.enq 0xFF 15 true true true).wellFormed = true := by decide
theorem witness_EncodeAfterDecodeIsIdentityOnSeventyDescriptors : decode 0x103 .zero = .ok .initOff := by decide
theorem witness_ReservedDescriptorsAreExactlyTheFiveClasses :
    (eventState 0x1FF .zero).inputs = [.event 0x1FF .zero] ∧ (eventState 0x103 .zero).inputs = [.event 0x103 .zero] := by decide
theorem witness_StepRunsTheDecodedOperation_event :
    (eventState 0x081 .zero).inputs = [.event 0x081 .zero] ∧ decode 0x081 .zero = .ok .deq := by decide
theorem witness_StepRunsTheDecodedOperation_cycle :
    (busState 0o777316 .dati).inputs = [.cycle 0o777316 .dati]
      ∧ routeCycle State.reset.cfg 0o777316 .dati = .delivered 0x007 .zero ∧ decode 0x007 .zero = .ok .datiAsh := by decide
theorem witness_StepRunsTheDecodedOperation_idle : State.reset.inputs = [] := by decide
/-- The first and the last register of each window, at an even and an odd address; the last of a window of seven registers. -/
theorem witness_CyclesInAWindowReachTheirRegister :
    let c := State.reset.cfg
    let seven := { c with eaeRegs := 7 }
    c.valid = true ∧ c.eaeEnabled = true ∧ c.serEnabled = true
      ∧ ((0 : BitVec 3).toNat < c.eaeRegs ∧ 0o777300 / 2 = c.eaeBase / 2 + (0 : BitVec 3).toNat)
      ∧ ((7 : BitVec 3).toNat < c.eaeRegs ∧ 0o777317 / 2 = c.eaeBase / 2 + (7 : BitVec 3).toNat)
      ∧ ((0 : BitVec 3).toNat < c.serRegs ∧ 0o760020 / 2 = c.serBase / 2 + (0 : BitVec 3).toNat)
      ∧ ((7 : BitVec 3).toNat < c.serRegs ∧ 0o760037 / 2 = c.serBase / 2 + (7 : BitVec 3).toNat)
      ∧ (seven.valid = true ∧ (6 : BitVec 3).toNat < seven.eaeRegs ∧ ¬ (7 : BitVec 3).toNat < seven.eaeRegs) := by decide
theorem witness_OddWordCyclesAreRefused :
    let c := State.reset.cfg
    0o777317 % 2 = 1 ∧ 0o777317 < 2 ^ c.busAddrWidth ∧ 0o760021 % 2 = 1 ∧ 0o760021 < 2 ^ c.busAddrWidth
      ∧ (c.eaeEnabled = true ∧ c.eaeBase ≤ 0o777317 ∧ 0o777317 < c.eaeBase + 2 * c.eaeRegs)
      ∧ (c.serEnabled = true ∧ c.serBase ≤ 0o760021 ∧ 0o760021 < c.serBase + 2 * c.serRegs) := by decide
/-- The addresses just below and just past the EAE window, and one inside it when the EAE is not enabled. -/
theorem witness_CyclesOutsideTheWindowsChangeNothing :
    let c := State.reset.cfg
    (¬ c.eaeBase ≤ 0o777277) ∧ (¬ 0o777320 < c.eaeBase + 2 * c.eaeRegs)
      ∧ (¬ 0o777277 < c.serBase + 2 * c.serRegs) ∧ { c with eaeEnabled := false }.eaeEnabled ≠ true := by decide
theorem witness_EventsDuringInitAreRefused :
    { State.reset with initAsserted := true }.initAsserted = true ∧ isSignal .deq = false ∧ isSignal .initOff = true := by decide
/-- The hypothesis most statements share: reset is outside the INIT interval. -/
theorem witness_EveryOperationCompletesOutsideInit : State.reset.initAsserted = false := by decide
theorem witness_StepsTakeInputsInOrderAndKeepTheConfiguration : step State.reset = .next State.reset := rfl
/-- A word, a low-byte and a high-byte write of a writable cell, and a write of NOR, which is not writable; for the serial cells, a
writable and a read-only bit. -/
theorem witness_BusWritesChangeExactlyTheSelectedWritableBits :
    got (exec (.datoBLDiv 0xFFFF) State.reset) (·.eaeWL.div) = some 0x00FF
      ∧ got (exec (.datoBHDiv 0xFFFF) State.reset) (·.eaeWL.div) = some 0xFF00
      ∧ got (exec (.datoWNor 0xFFFF) State.reset) (·.eaeWL.nor) = some 0
      ∧ got (exec (.datoBHSer 0 0xFFFF) State.reset) (·.serWL[0]) = some 0xFF00
      ∧ got (exec (.datoWSer 7 0xFFFF) State.reset) (·.serWL[7]) = some 0x003F := by decide
theorem witness_OnlyWritesAndResetsChangeWriteLatches :
    isDato .datiScsr = false ∧ isReset .datiScsr = false ∧ (got (exec .datiScsr State.reset) id).isSome = true := by decide
theorem witness_ByteOperandsComeFromTheWriteLatch :
    EaeReg.ash ≠ .nor ∧ (0x0080 : Word).getLsbD 7 = true ∧ (0xFF7F : Word).getLsbD 7 = false := by decide
theorem witness_ScsrWordHoldsEachFlagAtItsPosition : Config.layoutValid State.reset.cfg.srLayout = true := by decide
theorem witness_OperationsSetNFromTheResultAndIgnoreOldFlags :
    EaeReg.div ∈ [EaeReg.mul, .div, .nor, .lsh, .ash] ∧ State.reset.initAsserted = false := by decide
theorem witness_MulWritesTheSignedProduct : (loaded 0 0x8000).initAsserted = false := by decide
/-- |t| = 65536 takes the fail path for d = 1, |t| = 65535 the normal one. -/
theorem witness_DivTakesTheFailOrTheNormalPath :
    (loaded 1 0).initAsserted = false
      ∧ 2 ^ 16 * (operandAt (loaded 1 0) .div .word 1).toInt.natAbs ≤ (dOf (loaded 1 0)).toInt.natAbs
      ∧ (dOf (loaded 0 0xFFFF)).toInt.natAbs < 2 ^ 16 * (operandAt (loaded 0 0xFFFF) .div .word 1).toInt.natAbs := by decide
theorem witness_DivisionWithoutOverflowIsExact :
    (loaded 0 0xFFFF).initAsserted = false
      ∧ got (exec (.datoWDiv 2) (loaded 0 0xFFFF)) (fun u => (overflow u, u.mq, u.ac)) = some (false, 0x7FFF, 1) := by decide
theorem witness_DivisionByZeroReportsOverflow :
    (loaded 0 5).initAsserted = false ∧ operandAt (loaded 0 5) .div .word 0 = 0 := by decide
theorem witness_NorShiftsToTheFirstStop : (loaded 0 0).initAsserted = false := by decide
/-- The special case at its default, with a result of each kind: normalized, 31 shifts of 0, 31 shifts of -1. -/
theorem witness_NormalizingKeepsTheValue :
    (loaded 1 0).cfg.norSpecialAc = 0x6000
      ∧ got (exec (.datoWNor 0) (loaded 1 0)) (·.sc) = some 14 ∧ got (exec (.datoWNor 0) (loaded 0 0)) (·.sc) = some 31
      ∧ got (exec (.datoWNor 0) (loaded 0xFFFF 0xFFFF)) (·.sc) = some 31 := by decide
/-- k = 0 and k = 30. -/
theorem witness_AlternativeNorStopsAtMinusTwoToTheThirty :
    (dOf (loaded 0xC000 0)).toInt * 2 ^ 0 = -(2 ^ 30) ∧ (dOf (loaded 0xFFFF 0xFFFF)).toInt * 2 ^ 30 = -(2 ^ 30)
      ∧ { loaded 0xC000 0 with cfg := { defaultConfig with norSpecialAc := 0xC000 } }.cfg.norSpecialAc = 0xC000 := by decide
/-- The codes 1 and 31. -/
theorem witness_LshLeftShiftsAndReportsLostBits :
    (operandAt (loaded 1 2) .lsh .word 1).toNat % 64 = 1 ∧ (operandAt (loaded 1 2) .lsh .word 31).toNat % 64 = 31 := by decide
/-- The codes 32 and 63. -/
theorem witness_LshRightShiftsInZeros :
    (operandAt (loaded 1 2) .lsh .word 32).toNat % 64 = 32 ∧ (operandAt (loaded 1 2) .lsh .bytel 0x00FF).toNat % 64 = 63 := by decide
/-- The codes 1 and 31; a shift that overflows and one that does not. -/
theorem witness_AshLeftKeepsTheSignAndReportsOverflow :
    (operandAt (loaded 1 2) .ash .word 1).toNat % 64 = 1 ∧ (operandAt (loaded 1 2) .ash .word 31).toNat % 64 = 31
      ∧ got (exec (.datoWAsh 1) (loaded 0xC000 0)) overflow = some false
      ∧ got (exec (.datoWAsh 1) (loaded 0x4000 0)) overflow = some true := by decide
/-- The codes 32 and 63. -/
theorem witness_AshRightDividesRoundingDown :
    (operandAt (loaded 1 2) .ash .word 32).toNat % 64 = 32 ∧ (operandAt (loaded 1 2) .ash .word 63).toNat % 64 = 63 := by decide
theorem witness_ShiftCodeZeroRewritesTheFlags :
    (operandAt (loaded 1 2) .lsh .word 0x0040).toNat % 64 = 0 ∧ (operandAt (loaded 1 2) .ash .bytel 0x0080).toNat % 64 = 0 := by decide
theorem witness_LogicalShiftRoundTrips : (loaded 0x1234 0x5678).initAsserted = false ∧ 1 ≤ 1 ∧ 31 ≤ 31 := by decide
theorem witness_ArithmeticShiftRoundTrips : (loaded 0x0123 0x4567).initAsserted = false ∧ 1 ≤ 4 ∧ 4 ≤ 31 := by decide
theorem witness_SxtHoldsExactlyWhenDFitsInMq :
    EaeReg.mul ≠ .scsr ∧ got (exec (.datoWMul 2) (loaded 0 0x4000)) (·.sr.sxt) = some false
      ∧ got (exec (.datoWScsr 0) (loaded 0 1)) (·.sr.sxt) = some true := by decide
theorem witness_AcWriteLoadsTheAccumulator : (loadedLatch 0xFFFF 0x8000 .ac 0x0100).initAsserted = false := by decide
theorem witness_MqWriteLoadsMqAndSignExtendsIntoAc : (loadedLatch 0 0x0012 .mq 0x0012).initAsserted = false := by decide
theorem witness_ScsrWordWriteLoadsFlagsAndCountAndByteWritesAreIgnored : (loaded 0x1234 0x5678).initAsserted = false := by decide
theorem witness_LoadingMqBeforeAcLoadsD :
    State.reset.initAsserted = false ∧ got (execAll (expandPseudo (.load32 1 0x8000)) State.reset) dOf = some 0x00018000 := by
  decide
theorem witness_ReadingScsrRecomputesAndReturnsTheStatus : (loaded 0xFFFF 0x8000).initAsserted = false := by decide
theorem witness_ReadingNorAcAndMq : { loaded 1 2 with sc := 63 }.initAsserted = false ∧ EaeInv (loaded 1 2) := by
  unfold EaeInv
  decide
theorem witness_ReadingDivMulLshAshReturnsZero :
    (loadedLatch 0x1234 0x5678 .div 7).initAsserted = false ∧ EaeInv (loadedLatch 0x1234 0x5678 .div 7) := by
  unfold EaeInv
  decide
/-- Two good states that differ in their write latches and their silo, but not in what an EAE read shows. -/
theorem witness_EaeReadsAreFunctionsOfTheVisibleState :
    EaeInv (loadedLatch 1 2 .lsh 5) ∧ EaeInv { loaded 1 2 with count := 3 }
      ∧ (loadedLatch 1 2 .lsh 5).cfg.srLayout = { loaded 1 2 with count := 3 }.cfg.srLayout
      ∧ replyOf (exec .datiScsr (loadedLatch 1 2 .lsh 5)) = replyOf (exec .datiScsr { loaded 1 2 with count := 3 }) := by
  unfold EaeInv
  decide
theorem witness_SerialNamesDistinct : SerialNamesDistinct State.reset.cfg := by
  unfold SerialNamesDistinct
  decide
/-- The last character that fits, with the alarm and without it, and the first that does not, with the storage interrupt and without it. -/
theorem witness_EnqueueStoresOrDropsACharacter :
    (siloState 63 0x3F3F 0x0040).count ≤ 63
      ∧ (alarmField (siloState 63 0x3F3F 0x0040) < 63 + 1 ∧ (siloState 63 0x3F3F 0x0040).scr.getLsbD 6 = true)
      ∧ ¬ (alarmField (siloState 62 0x3E3F 0x0040) < 62 + 1)
      ∧ 63 < (siloState 64 0 0x1000).count ∧ (siloState 64 0 0x1000).scr.getLsbD 12 = true
      ∧ (siloState 64 0 0).scr.getLsbD 12 = false := by decide
/-- Both forms of a dequeue; a silo that is empty, holds one entry, and is full. -/
theorem witness_DequeueReturnsTheOldestEntryOrNone :
    isDequeue State.reset.cfg .deq = true ∧ isDequeue State.reset.cfg .datiSer1 = true ∧ (siloState 0 0 0).count = 0
      ∧ (siloState 0 0 0).cfg.emptyReadPolicy = .stale ∧ 0 < (siloState 1 0x0100 0).count ∧ (siloState 64 0 0).count ≤ 64
      ∧ { defaultConfig with emptyReadPolicy := .any }.emptyReadPolicy = .any := by decide
theorem witness_SerialReadsReturnTheReadLatch : (7 : BitVec 3).toFin ≠ State.reset.cfg.serRegmap.deq := by decide
theorem witness_SerialWritesReachTheRegisterValue :
    (7 : BitVec 3).toFin = State.reset.cfg.serRegmap.ssr
      ∧ (siloState 64 0x4000 0).cfg.valid = true ∧ isReset .deq = false
      ∧ ((siloState 64 0x4000 0).cfg.serWritable[(siloState 64 0x4000 0).cfg.serRegmap.ssr]).getLsbD 14 = false
      ∧ storageInt (siloState 64 0x4000 0) = true ∧ got (exec .deq (siloState 64 0x4000 0)) storageInt = some true := by decide
/-- Every entry of the test silo has its valid bit. -/
theorem siloState_entries_valid (n : Nat) (ssr scr : Word) : ∀ w ∈ queue (siloState n ssr scr), w.getLsbD 15 = true := by
  intro w hw
  have hmem := List.mem_of_mem_take hw
  simp only [siloState, Vector.mem_toList_iff, Vector.mem_ofFn] at hmem
  clear hw
  obtain ⟨i, rfl⟩ := hmem
  revert i
  decide
/-- Good silo states: empty, with one entry, and full. -/
theorem witness_SiloRefinesABoundedQueue :
    SiloInv (siloState 0 0 0) ∧ SiloInv (siloState 1 0x0100 0) ∧ SiloInv (siloState 64 0 0)
      ∧ (siloState 64 0 0).cfg.valid = true :=
  ⟨⟨by decide, by decide, siloState_entries_valid _ _ _⟩, ⟨by decide, by decide, siloState_entries_valid _ _ _⟩,
    ⟨by decide, by decide, siloState_entries_valid _ _ _⟩, by decide⟩
theorem witness_OnlyAnEnqueueRequestsAndOnlyOnce :
    got (exec .deq (siloState 1 0x0100 0x1040)) (·.irqLog) = some [] := by decide
theorem witness_PendingRequestsAreIdempotentAndRemovable :
    let s := { State.reset with pending := [(5, 31)], inputs := [.irqRemoved 5 31] }
    (s.cfg.serLevel, s.cfg.serSlot) ∈ s.pending ∧ s.inputs = [.irqRemoved 5 31] ∧ s.pending.Nodup
      ∧ got (step s) (·.pending) = some [] := by decide
theorem witness_TheTwoDevicesAreIsolated :
    isEaeCycle (.datoBHAsh 0) = true ∧ isSerialEvent .datiSer0 = true ∧ isSerialEvent .deq = true
      ∧ (got (exec (.datoBHAsh 0) State.reset) id).isSome = true := by decide
theorem witness_InitialStatesAreGood : defaultConfig.valid = true := by decide
theorem witness_EveryStepKeepsTheInvariant :
    GoodState { siloState 64 0 0 with inputs := [.event 0x00B (.ofData 5)] }
      ∧ (got (step { siloState 64 0 0 with inputs := [.event 0x00B (.ofData 5)] }) id).isSome = true := by
  refine ⟨⟨by decide, ?_, ⟨by decide, by decide, siloState_entries_valid 64 0 0⟩, ?_⟩, by decide⟩
  · unfold EaeInv
    decide
  · unfold IrqInv
    decide
theorem witness_StatusIsPublishedByEveryOperation : EaeReg.ash ≠ .scsr ∧ State.reset.initAsserted = false := by decide
/-- A base one register below the other device's window overlaps it, the base just below the window does not; nor does the base just
past a stub window, but the last register of one does (R224). -/
theorem witness_OverlappingDevicesStayDisabled :
    conflicts defaultConfig [] .eae 0o760002 = true ∧ conflicts defaultConfig [] .eae 0o760000 = false
      ∧ conflicts defaultConfig [⟨0o777310, 2⟩] .eae (deviceBase defaultConfig .eae) = true
      ∧ conflicts defaultConfig [] .eae 0o764044 = false ∧ conflicts defaultConfig [] .eae 0o764042 = true
      ∧ conflicts defaultConfig [] .ser 0o764164 = false ∧ conflicts defaultConfig [] .ser 0o764162 = true := by decide
/-- A valid configuration whose EAE window begins just past the vector display's registers, at the last of them; and the same base
moved one register down, which is not valid (R224). -/
theorem witness_StubAddressesSelectNoRegister :
    let c := { defaultConfig with eaeBase := 0o764044 }
    c.valid = true ∧ (busState 0o764042 .dati).inputs = [.cycle 0o764042 .dati]
      ∧ (0o764040 ≤ 0o764042 ∧ 0o764042 < 0o764040 + 4) ∧ (0o764100 ≤ 0o764162 ∧ 0o764162 < 0o764100 + 52)
      ∧ { c with eaeBase := 0o764042 }.valid = false ∧ { c with eaeEnabled := false, eaeBase := 0o764042 }.valid = true := by decide

end Sys2Proof.Tests
end

/-! PROOFS. The encoding statements (30_encoding.md R70 to R77): which descriptors the decoder refuses, that nothing else is refused as
reserved, and the descriptors of the bus cycles. -/

namespace Sys2Proof.Proofs.Encoding

open Sys2Proof.Machine Sys2Proof.Laws

/-! ## The fields of a descriptor as numbers (R70) -/

theorem descKind_toNat (d : Desc) : (descKind d).toNat = d.toNat / 128 := by
  have hd := d.isLt
  simp only [descKind, BitVec.extractLsb'_toNat, Nat.shiftRight_eq_div_pow]
  omega

theorem descAcc_toNat (d : Desc) : (descAcc d).toNat = d.toNat / 16 % 4 := by
  simp [descAcc, Nat.shiftRight_eq_div_pow]

theorem descCtl_eq_false_iff (d : Desc) : descCtl d = false ↔ d.toNat / 8 % 2 = 0 := by
  simp [descCtl, BitVec.getLsbD, Nat.testBit_eq_decide_div_mod_eq]

theorem portField_toNat (d : Desc) : (d.extractLsb' 1 6).toNat = d.toNat / 2 % 64 := by
  simp [Nat.shiftRight_eq_div_pow]

theorem signalField_toNat (d : Desc) : (d.extractLsb' 2 5).toNat = d.toNat / 4 % 32 := by
  simp [Nat.shiftRight_eq_div_pow]

/-- The five classes of R77, read off the descriptor's number. -/
theorem reservedClass_iff (d : Desc) :
    reservedClass d = true ↔
      d.toNat / 128 = 3
        ∨ (d.toNat / 128 = 0 ∧ d.toNat / 16 % 4 = 3)
        ∨ (d.toNat / 128 = 0 ∧ d.toNat / 8 % 2 = 0 ∧ d.toNat / 16 % 4 ≠ 0)
        ∨ (d.toNat / 128 = 1 ∧ d.toNat / 2 % 64 ≠ 0)
        ∨ (d.toNat / 128 = 2 ∧ d.toNat / 4 % 32 ≠ 0) := by
  simp only [reservedClass, Bool.or_eq_true, Bool.and_eq_true, decide_eq_true_eq, Bool.not_eq_true', bne_iff_ne, ne_eq,
    ← BitVec.toNat_inj, descKind_toNat, descAcc_toNat, descCtl_eq_false_iff, portField_toNat, signalField_toNat,
    BitVec.ofNat_eq_ofNat, BitVec.toNat_ofNat, Nat.reducePow, Nat.reduceMod, or_assoc, and_assoc]

/-! ## When the decoder refuses a descriptor (R77) -/

theorem decodeAccess_eq_none_iff {a : BitVec 2} : decodeAccess a = none ↔ a = 3 := by
  revert a; decide

theorem decodeAccess_eq_word_iff {a : BitVec 2} : decodeAccess a = some .word ↔ a = 0 := by
  revert a; decide

theorem decodeCycle_error_iff (d : Desc) (o : EventOperands) :
    (∃ why, decodeCycle d o = .error why) ↔ descAcc d = 3 ∨ (descCtl d = false ∧ descAcc d ≠ 0) := by
  rw [← decodeAccess_eq_none_iff, Ne, ← decodeAccess_eq_word_iff]
  unfold decodeCycle
  cases decodeAccess (descAcc d) with
  | none => simp
  | some acc => cases descCtl d <;> by_cases hw : acc = .word <;> simp [hw]

theorem decodePort_error_iff (d : Desc) (o : EventOperands) :
    (∃ why, decodePort d o = .error why) ↔ d.extractLsb' 1 6 ≠ 0 := by
  by_cases h : d.extractLsb' 1 6 = 0#6 <;> simp [decodePort, h]

theorem decodeSignal_error_iff (d : Desc) : (∃ why, decodeSignal d = .error why) ↔ d.extractLsb' 2 5 ≠ 0 := by
  by_cases h : d.extractLsb' 2 5 = 0#5 <;> simp [decodeSignal, h]

/-- The decoder refuses exactly the reserved classes, whatever the operands (R77). -/
theorem decode_error_iff (d : Desc) (o : EventOperands) :
    (∃ why, decode d o = .error why) ↔ reservedClass d = true := by
  have kinds : ∀ k : BitVec 2, k = 0 ∨ k = 1 ∨ k = 2 ∨ k = 3 := by decide
  unfold decode
  rcases kinds (descKind d) with hk | hk | hk | hk
  · simpa [reservedClass, hk] using decodeCycle_error_iff d o
  · simpa [reservedClass, hk] using decodePort_error_iff d o
  · simpa [reservedClass, hk] using decodeSignal_error_iff d
  · simp [reservedClass, hk]

/-! ## Nothing but the decoder refuses as reserved (60_exceptions.md R212) -/

/-- What waits for the end of the INIT interval runs, or is refused because of the interval (70_reset_and_hazards.md R244). -/
theorem unlessInit_cases (s t : State) :
    (∃ u, unlessInit s t = .next u) ∨ unlessInit s t = .refused .cycleDuringInit := by
  cases h : s.initAsserted <;> simp [h]

/-- An operation answers a next state, or is refused because of the INIT interval; there is no third outcome (R212, R244). -/
theorem exec_cases (i : Instr) (s : State) :
    (∃ t, exec i s = .next t) ∨ exec i s = .refused .cycleDuringInit := by
  induction i using instr_shapes with
  | eaeRead r => rw [exec_eaeDati]; exact unlessInit_cases ..
  | eaeWrite r acc data => rw [exec_eaeDato]; exact unlessInit_cases ..
  | serRead j => rw [exec_serDati]; exact unlessInit_cases ..
  | serWrite j acc data => rw [exec_serDato]; exact unlessInit_cases ..
  | enq char line pe fe ovr => rw [exec_enq]; exact unlessInit_cases ..
  | deq => rw [exec_deq]; exact unlessInit_cases ..
  | init => exact .inl ⟨_, exec_init s⟩
  | dclo => exact .inl ⟨_, exec_dclo s⟩
  | aclo => exact .inl ⟨_, exec_aclo s⟩
  | initOff => exact .inl ⟨_, exec_initOff s⟩

/-- No operation refuses its event as reserved (R212). -/
theorem exec_ne_reserved (i : Instr) (s : State) (why : Reserved) : exec i s ≠ .refused (.reservedDescriptor why) := by
  obtain ⟨t, h⟩ | h := exec_cases i s <;> simp [h]

/-- An event is refused as reserved exactly when its descriptor does not decode. -/
theorem runEvent_reserved_iff (d : Desc) (o : EventOperands) (s : State) (why : Reserved) :
    runEvent d o s = .refused (.reservedDescriptor why) ↔ decode d o = .error why := by
  cases hd : decode d o with
  | ok i => simp [runEvent_ok hd, exec_ne_reserved]
  | error w => simp [runEvent_error hd]

/-- Settles O3: the step refuses as reserved what the decoder refuses, and that is the five classes. -/
theorem reservedDescriptorsAreExactlyTheFiveClasses : Obligations.ReservedDescriptorsAreExactlyTheFiveClasses := by
  intro d o s rest hs
  simp only [step_of_input hs, deliver_event, runEvent_reserved_iff]
  rw [decode_error_iff, reservedClass_iff]

/-! ## The descriptors of bus cycles decode to their registers (R70, R74, R75) -/

/-- The fields of a bus cycle's descriptor are the ones it was formed from (R70). -/
theorem cycleDesc_fields (blk : Bool) (acc : Access) (ctl : Bool) (i : BitVec 3) :
    descKind (cycleDesc blk acc ctl i) = 0 ∧ descBlk (cycleDesc blk acc ctl i) = blk
      ∧ decodeAccess (descAcc (cycleDesc blk acc ctl i)) = some acc
      ∧ descCtl (cycleDesc blk acc ctl i) = ctl ∧ descIdx (cycleDesc blk acc ctl i) = i := by
  revert blk ctl i
  cases acc <;> decide

/-- The descriptor of a write decodes to the write of its register (R74, R75). -/
theorem decode_cycleDesc_dato (blk : Bool) (acc : Access) (i : BitVec 3) (o : EventOperands) :
    decode (cycleDesc blk acc true i) o =
      .ok (if blk then serDatoInstr i acc o.data else eaeDatoInstr (.ofIdx i) acc o.data) := by
  obtain ⟨hkind, hblk, hacc, hctl, hidx⟩ := cycleDesc_fields blk acc true i
  simp [decode, decodeCycle, hkind, hblk, hacc, hctl, hidx]

/-- The descriptor of a read decodes to the read of its register (R74, R75). -/
theorem decode_cycleDesc_dati (blk : Bool) (i : BitVec 3) (o : EventOperands) :
    decode (cycleDesc blk .word false i) o = .ok (if blk then serDatiInstr i else eaeDatiInstr (.ofIdx i)) := by
  obtain ⟨hkind, hblk, hacc, hctl, hidx⟩ := cycleDesc_fields blk .word false i
  simp [decode, decodeCycle, hkind, hblk, hacc, hctl, hidx]

/-- Settles O4: R74's values are the descriptors formed from the register's index, and those decode to its cycles. -/
theorem eaeCyclesDecodeByRegister : Obligations.EaeCyclesDecodeByRegister := by
  intro r o
  obtain ⟨hword, hbytel, hbyteh⟩ := cycleDesc_eae r.idx
  rw [← (cycleDesc_dati r.idx).1, ← hword, ← hbytel, ← hbyteh]
  simp [decode_cycleDesc_dati, decode_cycleDesc_dato]

end Sys2Proof.Proofs.Encoding

/-! PROOFS. The bus interface statements (40_bus_interface.md): the write latch after a bus write (R102), bit by bit for both devices, and
the operand an EAE write takes from it (R104), byte by byte. -/

namespace Sys2Proof.Proofs.BusInterface

open Sys2Proof.Machine Sys2Proof.Safety Sys2Proof.Laws

/-! ## The write latches after a write (R102) -/

/-- A bit of a write latch after the merge is the data's where it is writable and in a selected lane (R102). -/
theorem mergeLanes_lane_bit (old data writable : Word) (acc : Access) {k : Nat} (hk : k < 16) :
    (mergeLanes old data (writable &&& laneMask acc)).getLsbD k =
      if writable.getLsbD k = true ∧ (acc = .word ∨ (acc = .bytel ∧ k < 8) ∨ (acc = .byteh ∧ 8 ≤ k)) then data.getLsbD k
      else old.getLsbD k := by
  simp only [mergeLanes_bit, BitVec.getLsbD_and, Bool.and_eq_true, laneMask_bit acc k hk]

/-- The operation a write starts changes no EAE write latch (41_eae_mul_div.md R120). -/
theorem writeOp_eaeWL (r : EaeReg) (acc : Access) (v : Word) (s : State) : (writeOp r acc v s).eaeWL = s.eaeWL := by
  cases r <;> cases acc <;> rfl

/-- The operation a write starts changes no serial write latch (41_eae_mul_div.md R120). -/
theorem writeOp_serWL (r : EaeReg) (acc : Access) (v : Word) (s : State) : (writeOp r acc v s).serWL = s.serWL := by
  cases r <;> cases acc <;> rfl

/-- An EAE write leaves the merged latch in its register's write latch, and every other EAE write latch as it was. -/
theorem eaeDato_eaeWL (r : EaeReg) (acc : Access) (data : Word) (s : State) :
    (eaeDato r acc data (writeOp r acc) s).eaeWL = s.eaeWL.set r (latchAfter s r acc data) := by
  rw [eaeDato_operand, withReply_eaeWL, writeOp_eaeWL, busWrite_eq]

/-- An EAE write changes no serial write latch. -/
theorem eaeDato_serWL (r : EaeReg) (acc : Access) (data : Word) (s : State) :
    (eaeDato r acc data (writeOp r acc) s).serWL = s.serWL := by
  rw [eaeDato_operand, withReply_serWL, writeOp_serWL, busWrite_serWL]

/-- A serial write leaves the merged latch in its register's write latch, and every other serial write latch as it was. -/
theorem serDato_serWL (i : Fin 8) (acc : Access) (data : Word) (s : State) :
    (serDato i acc data s).serWL =
      s.serWL.set i.val (mergeLanes s.serWL[i.val] data (s.cfg.serWritable[i.val] &&& laneMask acc)) i.isLt := rfl

/-- A serial write changes no EAE write latch. -/
theorem serDato_eaeWL (i : Fin 8) (acc : Access) (data : Word) (s : State) : (serDato i acc data s).eaeWL = s.eaeWL := rfl

/-- Settles O13: an admitted write leaves the merged latch in the register written, whose bits R102 gives, and no other. -/
theorem busWritesChangeExactlyTheSelectedWritableBits : Obligations.BusWritesChangeExactlyTheSelectedWritableBits := by
  refine ⟨fun s r acc data hinit => ?_, fun s i acc data hinit => ?_⟩
  · rw [exec_eaeDato, unlessInit_of_not_init _ hinit]
    refine ⟨_, rfl, eaeDato_serWL .., fun q hq => ?_, fun k hk => ?_⟩
    · rw [eaeDato_eaeWL, latches_get_set_other _ _ hq]
    · rw [eaeDato_eaeWL, latches_get_set_same, latchAfter, mergeLanes_lane_bit _ _ _ _ hk]
      simp only [eaeWritable_bit r k hk]
  · rw [exec_serDato, unlessInit_of_not_init _ hinit]
    refine ⟨_, rfl, serDato_eaeWL .., fun j hj => ?_, fun k hk => ?_⟩
    · have hne : i.toFin.val ≠ j.val := fun e => hj (Fin.ext e.symm)
      rw [serDato_serWL]
      exact Vector.getElem_set_ne _ _ hne
    · rw [serDato_serWL, Fin.getElem_fin, Vector.getElem_set_self]
      exact mergeLanes_lane_bit _ _ _ _ hk

/-! ## The operand of an EAE write (R104) -/

/-- A word whose low byte's bits are one word's and whose high byte's bits are another's is those two bytes joined. -/
theorem eq_append_bytes {w hi lo : Word} (h : ∀ k, k < 16 → w.getLsbD k = if k < 8 then lo.getLsbD k else hi.getLsbD k) :
    w = hi.extractLsb' 8 8 ++ lo.extractLsb' 0 8 := by
  apply BitVec.eq_of_getLsbD_eq
  intro k hk
  rw [h k hk, BitVec.getLsbD_append]
  split
  case isTrue hlow => simp [hlow]
  case isFalse => simp [show k - 8 < 8 by omega, show 8 + (k - 8) = k by omega]

/-- Every bit of a latch but NOR's is writable, so the lanes alone select (00_scope.md R7). -/
theorem latchAfter_bit (s : State) {r : EaeReg} (hr : r ≠ .nor) (acc : Access) (data : Word) {k : Nat} (hk : k < 16) :
    (latchAfter s r acc data).getLsbD k =
      if acc = .word ∨ (acc = .bytel ∧ k < 8) ∨ (acc = .byteh ∧ 8 ≤ k) then data.getLsbD k
      else (s.eaeWL.get r).getLsbD k := by
  simp only [latchAfter, mergeLanes_lane_bit _ _ _ _ hk, eaeWritable_bit r k hk, hr, ne_eq, not_false_eq_true, true_and]

/-- A word write replaces the whole latch. -/
theorem latchAfter_word (s : State) {r : EaeReg} (hr : r ≠ .nor) (data : Word) : latchAfter s r .word data = data := by
  apply BitVec.eq_of_getLsbD_eq
  intro k hk
  simp [latchAfter_bit s hr .word data hk]

/-- A low-byte write keeps the latch's high byte. -/
theorem latchAfter_bytel (s : State) {r : EaeReg} (hr : r ≠ .nor) (data : Word) :
    latchAfter s r .bytel data = (s.eaeWL.get r).extractLsb' 8 8 ++ data.extractLsb' 0 8 :=
  eq_append_bytes fun k hk => by simp [latchAfter_bit s hr .bytel data hk]

/-- A high-byte write keeps the latch's low byte. -/
theorem latchAfter_byteh (s : State) {r : EaeReg} (hr : r ≠ .nor) (data : Word) :
    latchAfter s r .byteh data = data.extractLsb' 8 8 ++ (s.eaeWL.get r).extractLsb' 0 8 :=
  eq_append_bytes fun k hk => by
    rw [latchAfter_bit s hr .byteh data hk]
    by_cases hlow : k < 8
    · simp [hlow]
    · simp [hlow, Nat.not_lt.mp hlow]

/-- Filling the high byte with ones forgets what it held: this is `v := v | 0xFF00` of R104. -/
theorem or_FF00_append (hi lo : BitVec 8) : (hi ++ lo) ||| 0xFF00#16 = 0xFF#8 ++ lo := by
  have ones : 0xFF00#16 = BitVec.allOnes 8 ++ 0#8 := rfl
  rw [ones, BitVec.or_append, BitVec.or_allOnes, BitVec.or_zero]
  rfl

/-- A low byte's operand is sign-extended exactly when the byte written has bit 7 set. -/
theorem operandAt_bytel (s : State) {r : EaeReg} (hr : r ≠ .nor) (data : Word) :
    operandAt s r .bytel data =
      (if data.getLsbD 7 then 0xFF#8 else (s.eaeWL.get r).extractLsb' 8 8) ++ data.extractLsb' 0 8 := by
  have sign : (latchAfter s r .bytel data).getLsbD 7 = data.getLsbD 7 := by
    rw [latchAfter_bit s hr .bytel data (by decide), if_pos (.inr (.inl ⟨rfl, by decide⟩))]
  rw [operandAt, operandOf_bytel, sign, latchAfter_bytel s hr]
  split
  · exact or_FF00_append ..
  · rfl

/-- Settles O15: the merged latch byte by byte for each access mode, the high byte of a low-byte write's operand split on bit 7. -/
theorem byteOperandsComeFromTheWriteLatch : Obligations.ByteOperandsComeFromTheWriteLatch := by
  intro s r data hr
  refine ⟨?_, fun hneg => ?_, fun hpos => ?_, ?_⟩
  · rw [operandAt, operandOf_word, latchAfter_word s hr]
  · rw [operandAt_bytel s hr, if_pos hneg]
  · rw [operandAt_bytel s hr, hpos, if_neg Bool.false_ne_true]
  · rw [operandAt, operandOf_byteh, latchAfter_byteh s hr]

end Sys2Proof.Proofs.BusInterface

/-! PROOFS. The MUL and DIV statements (41_eae_mul_div.md): what `set_SR` recomputes and keeps (R121), the state an admitted write that
publishes a result leaves (R120), the product (R130), and the two paths of the division (R131 to R134). -/

namespace Sys2Proof.Proofs.MulDiv

open Sys2Proof.Machine Sys2Proof.Safety Sys2Proof.Laws

/-! ## `set_SR` (R121) -/

/-- Settles O16: the published flags are the dynamic ones, and the other three pass through. -/
theorem setSrRecomputesTheDynamicFlags : Obligations.SetSrRecomputesTheDynamicFlags := fun ac mq sr =>
  ⟨setSr_dynamic ac mq sr, setSr_n ac mq sr, setSr_nxv ac mq sr, setSr_c ac mq sr⟩

/-! ## A write that publishes a result (R106, R120) -/

/-- R74's descriptors of a register's three writes decode to them. -/
theorem writeEncoding_idx (r : EaeReg) :
    WriteEncoding r (0x008 + r.idx.setWidth 9) (0x018 + r.idx.setWidth 9) (0x028 + r.idx.setWidth 9) := fun o =>
  (Encoding.eaeCyclesDecodeByRegister r o).2

/-- Outside the INIT interval a write merges its latch and runs the register's operation on its operand (R104, R106, R244). -/
theorem exec_eaeDato_admitted (r : EaeReg) (acc : Access) (data : Word) {s : State} (h : s.initAsserted = false) :
    exec (eaeDatoInstr r acc data) s =
      .next ((writeOp r acc (operandAt s r acc data) (s.busWrite r data acc)).withReply none) := by
  rw [exec_eaeDato, unlessInit_of_not_init _ h, eaeDato_operand]

/-- The state after an admitted MUL: its result for the old MQ, published (R130). -/
theorem exec_mul (acc : Access) (data : Word) {s : State} (h : s.initAsserted = false) :
    exec (eaeDatoInstr .mul acc data) s =
      .next ((publish (mulResult s.mq (operandAt s .mul acc data)) (s.busWrite .mul data acc)).withReply none) :=
  exec_eaeDato_admitted .mul acc data h

/-- The state after an admitted DIV: its result for the old AC and MQ, published (R131). -/
theorem exec_div (acc : Access) (data : Word) {s : State} (h : s.initAsserted = false) :
    exec (eaeDatoInstr .div acc data) s =
      .next ((publish (divResult s.ac s.mq (operandAt s .div acc data)) (s.busWrite .div data acc)).withReply none) :=
  exec_eaeDato_admitted .div acc data h

/-- V of a published result (R124). -/
theorem overflow_publish (res : EaeResult) (s : State) (reply : Option Reply) :
    overflow ((publish res s).withReply reply) = (res.n ^^ res.nxv) := by
  simp [overflow]

/-! ## MUL (R130) -/

/-- The product of two words fits in 32 signed bits, so D holds it exactly. -/
theorem mulResult_product (mq v : Word) : (joinD (mulResult mq v).ac (mulResult mq v).mq).toInt = mq.toInt * v.toInt := by
  have hle : mq.toInt * v.toInt ≤ 2 ^ 30 := BitVec.toInt_mul_toInt_le
  have hge : -(2 ^ 30) ≤ mq.toInt * v.toInt := BitVec.le_toInt_mul_toInt
  simp only [mulResult, joinD_split, u32]
  apply BitVec.toInt_ofInt_eq_self <;> omega

/-- Settles O20: MUL publishes `mulResult`, whose D is the exact product. -/
theorem mulWritesTheSignedProduct : Obligations.MulWritesTheSignedProduct := by
  refine ⟨writeEncoding_idx .mul, fun s acc data hinit => ?_⟩
  refine ⟨_, exec_mul acc data hinit, committed_publish .., mulResult_product .., ?_⟩
  simp only [withReply_ac, withReply_sc, withReply_sr, publish_ac, publish_sc, publish_n, publish_nxv, publish_c,
    overflow_publish]
  exact ⟨rfl, rfl, rfl, rfl, Bool.xor_self _⟩

/-! ## DIV: which path is taken (R131) -/

/-- `floor(|t| / 2^16) ≥ |d|`, without the division. -/
theorem divFails_iff (ac mq v : Word) :
    divFails ac mq v = true ↔ 2 ^ 16 * v.toInt.natAbs ≤ (joinD ac mq).toInt.natAbs := by
  simp only [divFails, decide_eq_true_eq]
  omega

/-- The fail path, then the end toggle. -/
theorem divResult_of_large {ac mq v : Word} (h : 2 ^ 16 * v.toInt.natAbs ≤ (joinD ac mq).toInt.natAbs) :
    divResult ac mq v = endToggle (signWord (divFail ac mq v).mq) (divFail ac mq v) := by
  simp [divResult, (divFails_iff ac mq v).mpr h]

/-- The normal path, then the end toggle. -/
theorem divResult_of_small {ac mq v : Word} (h : (joinD ac mq).toInt.natAbs < 2 ^ 16 * v.toInt.natAbs) :
    divResult ac mq v = endToggle (signWord (divNormal ac mq v).mq) (divNormal ac mq v) := by
  have hnot : ¬ divFails ac mq v = true := fun hf => Nat.not_le.mpr h ((divFails_iff ac mq v).mp hf)
  simp [divResult, hnot]

/-- On either path N starts at 0, so the end toggle leaves in it the sign of the new MQ (R124, R134). -/
theorem divResult_n (ac mq v : Word) : (divResult ac mq v).n = signWord (divResult ac mq v).mq := by
  rcases Nat.lt_or_ge (joinD ac mq).toInt.natAbs (2 ^ 16 * v.toInt.natAbs) with h | h
  · rw [divResult_of_small h, endToggle_n, endToggle_mq]
    exact Bool.false_xor _
  · rw [divResult_of_large h, endToggle_n, endToggle_mq]
    exact Bool.false_xor _

/-! ## The fail path: one divide step (R132) -/

/-- Two signs are the same when they do not differ. -/
theorem not_xor_eq_beq (a b : Bool) : (!(a ^^ b)) = (a == b) := by
  revert a b; decide

/-- A word shifted left by one place has room for one bit: putting it in is adding it. -/
theorem shiftLeft_one_or_bit (m : Word) (b : Bool) :
    (m <<< 1) ||| (if b then 1 else 0 : Word) = (m <<< 1) + (if b then 1 else 0) := by
  refine (BitVec.add_eq_or_of_and_eq_zero _ _ ?_).symm
  apply BitVec.eq_of_getLsbD_eq
  intro k _
  cases b
  · simp
  · by_cases hk : k = 0 <;> simp [hk, BitVec.getLsbD_one]

/-- AC after the divide step: the high word of D shifted left by one, less the operand if the signs agree, else plus it. -/
theorem divFail_ac (ac mq v : Word) :
    (divFail ac mq v).ac =
      if (ac.getLsbD 15 == v.getLsbD 15) = true then hiWord (joinD ac mq <<< 1) - v else hiWord (joinD ac mq <<< 1) + v := by
  simp only [divFail, ← joinD_shift_one, hiWord_joinD, not_xor_eq_beq, signWord]

/-- MQ after the divide step: shifted left by one, with the quotient bit put in. -/
theorem divFail_mq (ac mq v : Word) :
    (divFail ac mq v).mq = (mq <<< 1) + (if (ac.getLsbD 15 == v.getLsbD 15) = true then 1 else 0) := by
  simp only [divFail, shiftLeft_one_or_bit, not_xor_eq_beq, signWord]

/-- C after the divide step: the new AC and the operand have the same sign. -/
theorem divFail_c (ac mq v : Word) : (divFail ac mq v).c = ((divFail ac mq v).ac.getLsbD 15 == v.getLsbD 15) :=
  not_xor_eq_beq _ _

/-! ## The normal path: quotient and remainder (R133) -/

/-- AC after the normal path: the remainder of the truncated division. -/
theorem divNormal_ac (ac mq v : Word) : (divNormal ac mq v).ac = BitVec.ofInt 16 ((joinD ac mq).toInt.tmod v.toInt) := by
  rw [Int.tmod_def]
  rfl

/-- The normal path reports V when the quotient does not fit in a word. -/
theorem divNormal_overflow_iff (ac mq v : Word) :
    ((divNormal ac mq v).n ^^ (divNormal ac mq v).nxv) = true ↔
      (joinD ac mq).toInt.tdiv v.toInt < -32768 ∨ 32767 < (joinD ac mq).toInt.tdiv v.toInt := by
  rw [show (divNormal ac mq v).n = false from rfl, Bool.false_xor]
  exact decide_eq_true_iff.trans or_comm

/-- Settles O21: DIV publishes `divResult`, split on the two paths' conditions. -/
theorem divTakesTheFailOrTheNormalPath : Obligations.DivTakesTheFailOrTheNormalPath := by
  refine ⟨writeEncoding_idx .div, fun s acc data hinit => ?_⟩
  refine ⟨_, exec_div acc data hinit, committed_publish .., ?_⟩
  simp only [withReply_ac, withReply_mq, withReply_sc, withReply_sr, publish_ac, publish_mq, publish_sc, publish_n, publish_c,
    overflow_publish]
  refine ⟨divResult_n .., fun hlarge => ?_, fun hsmall => ?_⟩
  · rw [divResult_of_large hlarge, endToggle_overflow]
    exact ⟨divFail_ac .., divFail_mq .., rfl, divFail_c .., rfl⟩
  · rw [divResult_of_small hsmall, endToggle_overflow]
    exact ⟨rfl, divNormal_ac .., rfl, rfl, divNormal_overflow_iff ..⟩

end Sys2Proof.Proofs.MulDiv

/-! PROOFS. The NOR statements (42_eae_shift_normalize.md R140): the loop's outcome as NOR's result, and the state an admitted write to
NOR leaves. -/

namespace Sys2Proof.Proofs.Normalize

open Sys2Proof.Machine Sys2Proof.Safety Sys2Proof.Laws

/-! ## NOR's result is where its loop ended (R140) -/

theorem norResult_ac (special ac mq : Word) : (norResult special ac mq).ac = (norLoop special 31 ac mq 0).1 := rfl

theorem norResult_mq (special ac mq : Word) : (norResult special ac mq).mq = (norLoop special 31 ac mq 0).2.1 := rfl

theorem norResult_sc (special ac mq : Word) :
    (norResult special ac mq).sc = BitVec.ofNat 6 (norLoop special 31 ac mq 0).2.2 := rfl

/-- N is the sign of the result, with no end toggle (R140). -/
theorem norResult_n (special ac mq : Word) : (norResult special ac mq).n = (norResult special ac mq).ac.getLsbD 15 := rfl

/-- NXV is N: NOR never overflows (R140). -/
theorem norResult_nxv (special ac mq : Word) : (norResult special ac mq).nxv = (norResult special ac mq).ac.getLsbD 15 := rfl

theorem norResult_c (special ac mq : Word) : (norResult special ac mq).c = false := rfl

/-- The six bits of SC hold every count of the loop, so NOR's result is D shifted left SC places, SC the first count at which D stops,
or 31. -/
theorem norResult_firstStop (special ac mq : Word) :
    ∃ k, k ≤ 31 ∧ (norResult special ac mq).sc.toNat = k
      ∧ joinD (norResult special ac mq).ac (norResult special ac mq).mq = joinD ac mq <<< k
      ∧ (∀ j, j < k → ¬ NorStops special (joinD ac mq <<< j))
      ∧ (k = 31 ∨ NorStops special (joinD ac mq <<< k)) := by
  obtain ⟨k, hle, hcount, hshift, hbefore, hstop⟩ := norLoop_spec special 31 ac mq 0
  refine ⟨k, hle, ?_, ?_, hbefore, hstop⟩
  · rw [norResult_sc, hcount, Nat.zero_add, BitVec.toNat_ofNat, Nat.mod_eq_of_lt (by omega)]
  · rw [norResult_ac, norResult_mq, hshift]

/-! ## The write to NOR -/

/-- The state after an admitted NOR: its result for the old AC and MQ, published; the data written is not used (R140). -/
theorem exec_nor (acc : Access) (data : Word) {s : State} (h : s.initAsserted = false) :
    exec (eaeDatoInstr .nor acc data) s =
      .next ((publish (norResult s.cfg.norSpecialAc s.ac s.mq) (s.busWrite .nor data acc)).withReply none) :=
  MulDiv.exec_eaeDato_admitted .nor acc data h

/-- Settles O24: NOR publishes `norResult`, whose D and SC are the loop's at its first stop. -/
theorem norShiftsToTheFirstStop : Obligations.NorShiftsToTheFirstStop := by
  refine ⟨MulDiv.writeEncoding_idx .nor, fun s acc data hinit => ?_⟩
  obtain ⟨k, hle, hsc, hshift, hbefore, hstop⟩ := norResult_firstStop s.cfg.norSpecialAc s.ac s.mq
  refine ⟨_, k, exec_nor acc data hinit, committed_publish .., hle, hsc, hshift, hbefore, hstop, ?_⟩
  simp only [withReply_ac, withReply_sr, publish_ac, publish_n, publish_nxv, publish_c]
  exact ⟨norResult_n .., norResult_nxv .., norResult_c ..⟩

end Sys2Proof.Proofs.Normalize

/-! PROOFS. The register access statements (43_eae_register_access.md): the writes that load AC, MQ and SCSR (R160 to R163), done once
and done again, and the reads of the eight registers (R164 to R171). -/

namespace Sys2Proof.Proofs.RegisterAccess

open Sys2Proof.Machine Sys2Proof.Safety Sys2Proof.Laws

/-! ## A loading write, and the same cycle again (R160 to R162) -/

/-- The state after a write cycle that loads AC, MQ, SC and SR with given values and commits them (40_bus_interface.md R106,
41_eae_mul_div.md R120). -/
def afterLoad (s : State) (r : EaeReg) (acc : Access) (data ac mq : Word) (sc : BitVec 6) (sr : Sr) : State :=
  (commit { s.busWrite r data acc with ac := ac, mq := mq, sc := sc, sr := sr }).withReply none

section
variable (s : State) (r : EaeReg) (acc : Access) (data ac mq : Word) (sc : BitVec 6) (sr : Sr)

@[simp] theorem afterLoad_ac : (afterLoad s r acc data ac mq sc sr).ac = ac := rfl
@[simp] theorem afterLoad_mq : (afterLoad s r acc data ac mq sc sr).mq = mq := rfl
@[simp] theorem afterLoad_sc : (afterLoad s r acc data ac mq sc sr).sc = sc := rfl
@[simp] theorem afterLoad_sr : (afterLoad s r acc data ac mq sc sr).sr = setSr ac mq sr := rfl
@[simp] theorem afterLoad_cfg : (afterLoad s r acc data ac mq sc sr).cfg = s.cfg := rfl
@[simp] theorem afterLoad_initAsserted : (afterLoad s r acc data ac mq sc sr).initAsserted = s.initAsserted := rfl
@[simp] theorem afterLoad_eaeWL :
    (afterLoad s r acc data ac mq sc sr).eaeWL = s.eaeWL.set r (latchAfter s r acc data) := rfl

theorem afterLoad_committed : Committed s (afterLoad s r acc data ac mq sc sr) r acc data :=
  committed_commit s r acc data ac mq sc sr

/-- The merge of the same cycle leaves the write latch as the first one left it (R102). -/
@[simp] theorem latchAfter_afterLoad :
    latchAfter (afterLoad s r acc data ac mq sc sr) r acc data = latchAfter s r acc data := by
  rw [latchAfter, afterLoad_eaeWL, latches_get_set_same]
  exact mergeLanes_idem ..

/-- So the same cycle again has the same operand (R104). -/
@[simp] theorem operandAt_afterLoad :
    operandAt (afterLoad s r acc data ac mq sc sr) r acc data = operandAt s r acc data := by
  rw [operandAt, latchAfter_afterLoad, operandAt]

/-- Loading the same values in the same cycle again changes nothing; of SR only what `set_SR` makes of it counts. -/
theorem afterLoad_afterLoad {sr' : Sr} (h : setSr ac mq sr' = setSr ac mq sr) :
    afterLoad (afterLoad s r acc data ac mq sc sr) r acc data ac mq sc sr' = afterLoad s r acc data ac mq sc sr := by
  refine (afterLoad_committed ..).2.trans ?_
  rw [latchAfter_afterLoad, afterLoad_eaeWL, latches_set_set, published, afterLoad_sr, h]
  rfl

end

/-! ## The write to AC (R160) -/

/-- The state after an admitted write to AC (R160). -/
theorem exec_ac (acc : Access) (data : Word) {s : State} (h : s.initAsserted = false) :
    exec (eaeDatoInstr .ac acc data) s = .next (afterLoad s .ac acc data (operandAt s .ac acc data) s.mq s.sc s.sr) :=
  MulDiv.exec_eaeDato_admitted .ac acc data h

/-- Settles O34: the write loads AC and leaves the rest, and loading the same AC again changes nothing. -/
theorem acWriteLoadsTheAccumulator : Obligations.AcWriteLoadsTheAccumulator := by
  refine ⟨MulDiv.writeEncoding_idx .ac, fun s acc data hinit => ?_⟩
  refine ⟨_, exec_ac acc data hinit, afterLoad_committed .., rfl, rfl, rfl, ⟨setSr_n .., setSr_nxv .., setSr_c ..⟩, ?_⟩
  rw [exec_ac acc data ((afterLoad_initAsserted ..).trans hinit)]
  simp only [operandAt_afterLoad, afterLoad_mq, afterLoad_sc, afterLoad_sr]
  rw [afterLoad_afterLoad (h := setSr_setSr ..)]

/-! ## The write to MQ (R161) -/

/-- AC as a write to MQ leaves it: the sign of MQ in every bit (R161). -/
def signFill (mq : Word) : Word := if signWord mq then 0xFFFF else 0

/-- D is then MQ sign-extended (R161). -/
theorem joinD_signFill (mq : Word) : joinD (signFill mq) mq = mq.signExtend 32 := by
  have fill : ∀ k < 16, (signFill mq).getLsbD k = mq.getLsbD 15 := by
    intro k hk
    unfold signFill signWord
    cases mq.getLsbD 15
    · simp
    · revert k; decide
  apply BitVec.eq_of_getLsbD_eq
  intro k hk
  rw [joinD_bit, BitVec.getLsbD_signExtend]
  split
  case isTrue => simp [hk]
  case isFalse => simp [hk, fill (k - 16) (by omega), BitVec.msb_eq_getLsbD_last]

/-- The dynamic flags when AC is the sign of MQ (R161, R121). -/
theorem setSr_signFill (mq : Word) (sr : Sr) :
    (setSr (signFill mq) mq sr).sxt = true ∧ (setSr (signFill mq) mq sr).acz = (!mq.getLsbD 15)
      ∧ (setSr (signFill mq) mq sr).acm1 = mq.getLsbD 15 ∧ (setSr (signFill mq) mq sr).z = decide (mq = 0) := by
  rw [setSr_sxt, setSr_acz, setSr_acm1, setSr_z]
  unfold signFill signWord
  cases hsign : mq.getLsbD 15
  case false => simp
  case true =>
    have hne : mq ≠ 0#16 := by rintro rfl; simp at hsign
    simp [hne]

/-- The state after an admitted write to MQ (R161). -/
theorem exec_mq (acc : Access) (data : Word) {s : State} (h : s.initAsserted = false) :
    exec (eaeDatoInstr .mq acc data) s =
      .next (afterLoad s .mq acc data (signFill (operandAt s .mq acc data)) (operandAt s .mq acc data) s.sc s.sr) :=
  MulDiv.exec_eaeDato_admitted .mq acc data h

/-- Settles O35: the write loads MQ and fills AC with its sign, which fixes D and the dynamic flags. -/
theorem mqWriteLoadsMqAndSignExtendsIntoAc : Obligations.MqWriteLoadsMqAndSignExtendsIntoAc := by
  refine ⟨MulDiv.writeEncoding_idx .mq, fun s acc data hinit => ?_⟩
  obtain ⟨hsxt, hacz, hacm1, hz⟩ := setSr_signFill (operandAt s .mq acc data) s.sr
  exact ⟨_, exec_mq acc data hinit, afterLoad_committed .., rfl, joinD_signFill _, rfl,
    ⟨setSr_n .., setSr_nxv .., setSr_c ..⟩, hsxt, hacz, hacm1, hz, setSr_mqz .., rfl⟩

/-! ## The writes to SCSR (R162, R163) -/

/-- SC takes the low six bits of the data (R162). -/
theorem scsrCount_toNat (v : Word) : (scsrCount v).toNat = v.toNat % 64 := by
  simp [scsrCount]

/-- What a word write makes of SR does not depend on the flags it finds: three are loaded, five recomputed (R162). -/
theorem setSr_loadFlags (ac mq : Word) (l : SrLayout) (v : Word) (a b : Sr) :
    setSr ac mq (loadFlags l v a) = setSr ac mq (loadFlags l v b) :=
  setSr_congr rfl rfl rfl

/-- The state after an admitted word write to SCSR, whose operand is the data (R162). -/
theorem exec_scsr_word (data : Word) {s : State} (h : s.initAsserted = false) :
    exec (.datoWScsr data) s =
      .next (afterLoad s .scsr .word data s.ac s.mq (scsrCount data) (loadFlags s.cfg.srLayout data s.sr)) := by
  have hword : operandAt s .scsr .word data = data :=
    (BusInterface.byteOperandsComeFromTheWriteLatch s .scsr data (by decide)).1
  have hexec := MulDiv.exec_eaeDato_admitted .scsr .word data h
  rw [hword] at hexec
  exact hexec

/-- An admitted byte write to SCSR leaves the merged write latch and runs no operation (R163). -/
theorem exec_scsr_byte {acc : Access} (hbyte : acc ≠ .word) (data : Word) {s : State} (h : s.initAsserted = false) :
    exec (eaeDatoInstr .scsr acc data) s =
      .next { s with eaeWL := { s.eaeWL with scsr := latchAfter s .scsr acc data }, reply := none } := by
  rw [MulDiv.exec_eaeDato_admitted .scsr acc data h]
  cases acc with
  | word => exact absurd rfl hbyte
  | bytel | byteh => rfl

/-- Settles O36: a word write loads SC and the three stored flags from its data, so that repeating it loads the same; a byte write runs
nothing. -/
theorem scsrWordWriteLoadsFlagsAndCountAndByteWritesAreIgnored :
    Obligations.ScsrWordWriteLoadsFlagsAndCountAndByteWritesAreIgnored := by
  refine ⟨MulDiv.writeEncoding_idx .scsr, fun s data hinit => ⟨?_, exec_scsr_byte (acc := .bytel) (by decide) data hinit,
    exec_scsr_byte (acc := .byteh) (by decide) data hinit⟩⟩
  refine ⟨_, exec_scsr_word data hinit, afterLoad_committed .., rfl, rfl, scsrCount_toNat data, setSr_n .., setSr_nxv ..,
    setSr_c .., ?_⟩
  rw [exec_scsr_word data ((afterLoad_initAsserted ..).trans hinit)]
  simp only [afterLoad_ac, afterLoad_mq, afterLoad_sr, afterLoad_cfg]
  rw [afterLoad_afterLoad (h := setSr_loadFlags ..)]

/-! ## Reads (R164 to R171) -/

/-- R74's descriptor of a register's read decodes to it. -/
theorem decode_dati_idx (r : EaeReg) (o : EventOperands) : decode (0x000 + r.idx.setWidth 9) o = .ok (eaeDatiInstr r) :=
  (Encoding.eaeCyclesDecodeByRegister r o).1

/-- Outside the INIT interval a read runs the register's routine and returns the read latch (R106, R244). -/
theorem exec_eaeDati_admitted (r : EaeReg) {s : State} (h : s.initAsserted = false) :
    exec (eaeDatiInstr r) s = .next (eaeDati r (readRoutine r) s) := by
  rw [exec_eaeDati, unlessInit_of_not_init _ h]

/-- A register without a read routine returns its read latch and changes nothing (R165, R166, R168 to R171). -/
theorem exec_eaeDati_latch {r : EaeReg} (hr : readRoutine r = id) {s : State} (h : s.initAsserted = false) :
    exec (eaeDatiInstr r) s = .next (s.withReply (some (.word (s.eaeRL.get r)))) := by
  rw [exec_eaeDati_admitted r h, hr, eaeDati_id]

/-- The state after an admitted DATI SCSR: SR recomputed, the status word published and returned (R167). -/
theorem exec_datiScsr {s : State} (h : s.initAsserted = false) :
    exec .datiScsr s = .next ((readScsr s).withReply (some (.word (scsrWord s.cfg.srLayout (readScsr s).sr s.sc)))) :=
  exec_eaeDati_admitted .scsr h

/-- A second DATI SCSR finds SR recomputed and the status word published (R167). -/
theorem readScsr_readScsr_withReply (s : State) (reply : Option Reply) :
    readScsr ((readScsr s).withReply reply) = (readScsr s).withReply reply := by
  simp [readScsr, State.withReply, State.deviceWrite]

/-- Settles O38: the read routine's own equation, and that running it twice is running it once. -/
theorem readingScsrRecomputesAndReturnsTheStatus : Obligations.ReadingScsrRecomputesAndReturnsTheStatus := by
  refine ⟨decode_dati_idx .scsr, fun s hinit => ?_⟩
  refine ⟨_, exec_datiScsr hinit, setSr_dynamic .., ⟨setSr_n .., setSr_nxv .., setSr_c ..⟩, rfl, rfl, ?_⟩
  rw [exec_datiScsr (s := (readScsr s).withReply _) hinit, readScsr_readScsr_withReply]
  rfl

/-- Settles O39: NOR's routine publishes SC; AC and MQ have none, and in a good state their read latches are AC and MQ. -/
theorem readingNorAcAndMq : Obligations.ReadingNorAcAndMq := by
  refine ⟨fun o => ⟨decode_dati_idx .nor o, decode_dati_idx .ac o, decode_dati_idx .mq o⟩, fun s hinit => ?_⟩
  have hac : exec .datiAc s = .next { s with reply := some (.word s.eaeRL.ac) } := exec_eaeDati_latch (r := .ac) rfl hinit
  have hmq : exec .datiMq s = .next { s with reply := some (.word s.eaeRL.mq) } := exec_eaeDati_latch (r := .mq) rfl hinit
  refine ⟨exec_eaeDati_admitted .nor hinit, hac, hmq, fun hinv => ?_⟩
  obtain ⟨hlatchAc, hlatchMq, -⟩ := hinv
  exact ⟨hlatchAc ▸ hac, hlatchMq ▸ hmq⟩

/-- Settles O40: the four reads return their read latches, which are 0 in a good state. -/
theorem readingDivMulLshAshReturnsZero : Obligations.ReadingDivMulLshAshReturnsZero := by
  refine ⟨fun o => ⟨decode_dati_idx .div o, decode_dati_idx .mul o, decode_dati_idx .lsh o, decode_dati_idx .ash o⟩,
    fun s hinit hinv => ?_⟩
  have readsZero : ∀ r, readRoutine r = id → s.eaeRL.get r = 0 →
      exec (eaeDatiInstr r) s = .next { s with reply := some (.word 0) } := fun r hr hzero => by
    rw [exec_eaeDati_latch hr hinit, hzero]
    rfl
  obtain ⟨-, -, -, hdiv, hmul, hlsh, hash, -⟩ := hinv
  exact ⟨readsZero .div rfl hdiv, readsZero .mul rfl hmul, readsZero .lsh rfl hlsh, readsZero .ash rfl hash⟩

end Sys2Proof.Proofs.RegisterAccess

/-! PROOFS. The silo statements (44_silo.md): what an enqueue (R182 to R185), a dequeue (R186, R187), a read (R190) and a write (R191) of
a serial register leave, and that only a reset clears STORAGE_INT. -/

namespace Sys2Proof.Proofs.Silo

open Sys2Proof.Machine Sys2Proof.Safety Sys2Proof.Laws

/-! ## The serial read latches and the bits of SSR -/

/-- A written read latch holds the value (40_bus_interface.md R100). -/
theorem serDeviceWrite_latch_same (s : State) (i : Fin 8) (v : Word) : (s.serDeviceWrite i v).serRL[i] = v :=
  Vector.getElem_set_self i.isLt

/-- A write leaves the other read latches (R100). -/
theorem serDeviceWrite_latch_other (s : State) {i j : Fin 8} (v : Word) (h : j ≠ i) :
    (s.serDeviceWrite i v).serRL[j] = s.serRL[j] :=
  Vector.getElem_set_ne i.isLt j.isLt fun e => h (Fin.ext e.symm)

@[simp] theorem ssr_withReply (s : State) (r : Option Reply) : (s.withReply r).ssr = s.ssr := rfl

/-- SSR is no part of the silo array or its count (10_state.md R38). -/
theorem ssr_withSilo (s : State) (v : Vector Word 64) (n : Nat) : { s with silo := v, count := n }.ssr = s.ssr := rfl

/-- A bit of a word with one bit set (10_state.md R38). -/
theorem setBit_bit (v : Word) (b : Fin 16) (k : Nat) : (setBit v b).getLsbD k = (decide (k = b.val) || v.getLsbD k) := by
  rcases Nat.lt_trichotomy k b.val with h | h | h
  · simp [setBit, h, Nat.ne_of_lt h]
  · simp [setBit, h]
  · simp [setBit, BitVec.getLsbD_one, Nat.ne_of_gt h, Nat.sub_ne_zero_of_lt h]

/-- The fill field of a state whose SSR had it rewritten from a count (44_silo.md R184). -/
theorem fillField_of_ssr {t : State} {v : Word} {n : Nat} (h : t.ssr = withFill v n) : fillField t = n % 64 := by
  simpa [fillField, h] using withFill_field v n

/-! ## The request of an enqueue (R185, R192) -/

/-- An interrupt requested on a condition. -/
def requestWhen (b : Bool) (kind : IrqKind) (s : State) : State := if b then requestIrq kind s else s

/-- A request touches the request log and the pending set only (60_exceptions.md R215). -/
theorem requestWhen_eq (b : Bool) (kind : IrqKind) (s : State) :
    requestWhen b kind s =
      { s with irqLog := (requestWhen b kind s).irqLog, pending := (requestWhen b kind s).pending } := by
  cases b <;> rfl

@[simp] theorem requestWhen_cfg (b : Bool) (kind : IrqKind) (s : State) : (requestWhen b kind s).cfg = s.cfg := by
  rw [requestWhen_eq]
@[simp] theorem requestWhen_serRL (b : Bool) (kind : IrqKind) (s : State) : (requestWhen b kind s).serRL = s.serRL := by
  rw [requestWhen_eq]
@[simp] theorem requestWhen_silo (b : Bool) (kind : IrqKind) (s : State) : (requestWhen b kind s).silo = s.silo := by
  rw [requestWhen_eq]
@[simp] theorem requestWhen_count (b : Bool) (kind : IrqKind) (s : State) : (requestWhen b kind s).count = s.count := by
  rw [requestWhen_eq]
@[simp] theorem requestWhen_ssr (b : Bool) (kind : IrqKind) (s : State) : (requestWhen b kind s).ssr = s.ssr := by
  rw [requestWhen_eq]; rfl

theorem requestWhen_requested {b : Bool} (hb : b = true) (kind : IrqKind) (s : State) :
    Requested kind s (requestWhen b kind s) := by
  subst hb
  exact ⟨rfl, mem_requestIrq_pending kind s⟩

theorem requestWhen_noRequest {b : Bool} (hb : b = false) (kind : IrqKind) (s : State) :
    NoRequest s (requestWhen b kind s) := by
  subst hb
  exact ⟨rfl, rfl⟩

/-! ## Enqueue (R182) -/

/-- The state once a character is stored and counted, before the alarm compare (R182 steps 2 and 3). -/
def stored (entry : Word) (s : State) : State :=
  { s with silo := s.silo.setIfInBounds s.count entry, count := s.count + 1 }.withSsr (withFill s.ssr (s.count + 1))

/-- The state once a dropped character has set STORAGE_INT (R182 step 1). -/
def dropped (s : State) : State := s.withSsr (setBit s.ssr s.cfg.ssrStorageIntBit)

@[simp] theorem stored_ssr (entry : Word) (s : State) : (stored entry s).ssr = withFill s.ssr (s.count + 1) := ssr_withSsr ..

@[simp] theorem dropped_ssr (s : State) : (dropped s).ssr = setBit s.ssr s.cfg.ssrStorageIntBit := ssr_withSsr ..

/-- SSR being rewritten first changes neither the alarm level nor SCR, so the alarm compare is that of the state before (R184, R185). -/
theorem storeChar_requestWhen (entry : Word) {s : State} (h : s.cfg.serRegmap.scr ≠ s.cfg.serRegmap.ssr) :
    storeChar entry s =
      (requestWhen (decide (alarmField s < s.count + 1) && s.scr.getLsbD s.cfg.scrRxIntEnableBit) .alarm
        (stored entry s)).withReply (some (.accepted true)) := by
  have hlevel : alarmLevel (stored entry s).ssr = alarmField s := by
    rw [stored_ssr, alarmLevel_withFill, alarmLevel_eq_alarmField]
  have hscr : (stored entry s).scr = s.scr := scr_withSsr h _
  rw [← hlevel, ← hscr]
  rfl

/-- SSR being rewritten first leaves SCR, so the storage interrupt's enable is that of the state before (R182). -/
theorem dropChar_requestWhen {s : State} (h : s.cfg.serRegmap.scr ≠ s.cfg.serRegmap.ssr) :
    dropChar s =
      (requestWhen (s.scr.getLsbD s.cfg.scrSIntEnableBit) .storage (dropped s)).withReply (some (.accepted false)) := by
  have hscr : (dropped s).scr = s.scr := scr_withSsr h _
  rw [← hscr, dropChar_eq]
  rfl

/-- Settles O42: the full silo and the one with room are the model's two branches; each rewrites SSR, requests on its condition and
answers. -/
theorem enqueueStoresOrDropsACharacter : Obligations.EnqueueStoresOrDropsACharacter := by
  intro s char line pe fe ovr hinit ⟨hscr, _⟩
  refine ⟨_, (exec_enq ..).trans (unlessInit_of_not_init _ hinit), ?_⟩
  by_cases hfull : 63 < s.count
  · rw [enqueue, if_pos hfull, dropChar_requestWhen hscr]
    refine ⟨fun i hi => ?_, fun hroom => absurd hfull (Nat.not_lt.mpr hroom), fun _ => ?_⟩
    · rw [withReply_serRL, requestWhen_serRL]
      exact serDeviceWrite_latch_other s _ hi
    · refine ⟨rfl, ?_, fun k hk => ?_, fun hon => requestWhen_requested hon .storage (dropped s),
        fun hoff => requestWhen_noRequest hoff .storage (dropped s), ?_⟩
      · rw [storageInt, ssr_withReply, requestWhen_ssr, dropped_ssr, setBit_bit]
        simp [dropped]
      · rw [ssr_withReply, requestWhen_ssr, dropped_ssr, setBit_bit]
        simp [hk]
      · rw [requestWhen_eq]; rfl
  · rw [enqueue, if_neg hfull, storeChar_requestWhen _ hscr]
    refine ⟨fun i hi => ?_, fun _ => ?_, fun h => absurd h hfull⟩
    · rw [withReply_serRL, requestWhen_serRL]
      exact serDeviceWrite_latch_other { s with silo := _, count := _ } _ hi
    · refine ⟨rfl, by simp [stored], ⟨_, siloEntry_fields char line pe fe ovr, by simp [stored]⟩,
        fillField_of_ssr (v := s.ssr) (by simp), ?_,
        fun hon => requestWhen_requested (by simpa using hon) .alarm (stored _ s),
        fun hoff => requestWhen_noRequest (by simpa using hoff) .alarm (stored _ s), ?_⟩
      · rw [ssr_withReply, requestWhen_ssr, stored_ssr, withFill_outside]
      · rw [requestWhen_eq]; rfl

/-! ## Dequeue (R186, R187) -/

/-- A word put into the dequeue register's read latch and returned (R186). -/
def handOver (w : Word) (s : State) : State := (s.serDeviceWrite s.cfg.serRegmap.deq w).withReply (some (.word w))

/-- The dequeue register is not SSR, so handing a word over leaves SSR (10_state.md R41). -/
theorem handOver_ssr (w : Word) {s : State} (h : s.cfg.serRegmap.deq ≠ s.cfg.serRegmap.ssr) : (handOver w s).ssr = s.ssr :=
  serDeviceWrite_latch_other s w h.symm

/-- An empty read changes nothing but the count of free values drawn (R187). -/
theorem emptyRead_state (s : State) : (emptyRead s).2 = { s with draws := (emptyRead s).2.draws } := by
  unfold emptyRead
  split <;> rfl

/-- A dequeue that finds no entry (R187). -/
theorem dequeue_of_empty {s : State} (h : s.count = 0) :
    dequeue s = handOver (emptyRead s).1 { s with draws := (emptyRead s).2.draws } := by
  rw [← emptyRead_state, dequeue, if_pos h]; rfl

/-- A dequeue that finds an entry (R186). -/
theorem dequeue_of_entry {s : State} (h : 0 < s.count) : dequeue s = handOver (s.silo[0] ||| 0x8000) (takeOldest s).2 := by
  rw [dequeue, if_neg (Nat.ne_of_gt h)]; rfl

theorem emptyRead_stale {s : State} (h : s.cfg.emptyReadPolicy = .stale) : emptyRead s = (s.silo[0] &&& 0x7FFF, s) := by
  simp [emptyRead, h]

theorem emptyRead_any {s : State} (h : s.cfg.emptyReadPolicy = .any) :
    emptyRead s = ((Config.freeEmptyRead s.draws).setWidth 16, { s with draws := s.draws + 1 }) := by
  simp [emptyRead, h]

/-- The empty word is not marked valid, under either policy (R187). -/
theorem emptyRead_not_valid (s : State) : (emptyRead s).1.getLsbD 15 = false := by
  cases h : s.cfg.emptyReadPolicy with
  | stale => rw [emptyRead_stale h]; simp
  | any => rw [emptyRead_any h]; simp

/-- Taking an entry rewrites SSR's fill field (R184). -/
@[simp] theorem takeOldest_ssr (s : State) : (takeOldest s).2.ssr = withFill s.ssr (s.count - 1) := by
  rw [takeOldest, ssr_withSsr, ssr_withSilo]

theorem serDati_deq (s : State) : serDati s.cfg.serRegmap.deq s = dequeue s := if_pos rfl

/-- An empty dequeue leaves SSR (R187). -/
theorem handOver_drawn_ssr (w : Word) (n : Nat) {s : State} (h : s.cfg.serRegmap.deq ≠ s.cfg.serRegmap.ssr) :
    (handOver w { s with draws := n }).ssr = s.ssr :=
  handOver_ssr (s := { s with draws := n }) w h

/-- A dequeue of an entry rewrites SSR's fill field and nothing else of it (R184, R186). -/
theorem handOver_takeOldest_ssr (w : Word) {s : State} (h : s.cfg.serRegmap.deq ≠ s.cfg.serRegmap.ssr) :
    (handOver w (takeOldest s).2).ssr = withFill s.ssr (s.count - 1) :=
  (handOver_ssr (s := (takeOldest s).2) w h).trans (takeOldest_ssr s)

/-- Both forms of an admitted dequeue run the dequeue (R186). -/
theorem exec_dequeue {s : State} {i : Instr} (hinit : s.initAsserted = false) (hi : isDequeue s.cfg i = true) :
    exec i s = .next (dequeue s) := by
  simp only [isDequeue, Bool.or_eq_true, decide_eq_true_eq] at hi
  obtain rfl | rfl := hi
  · rw [exec_deq, unlessInit_of_not_init _ hinit]
  · rw [exec_serDati, unlessInit_of_not_init _ hinit]
    exact congrArg _ (serDati_deq s)

/-- Settles O43: the empty silo and the one with an entry are the model's two branches; each hands its word over. -/
theorem dequeueReturnsTheOldestEntryOrNone : Obligations.DequeueReturnsTheOldestEntryOrNone := by
  intro s i hinit hi _ ⟨_, hdeq, _⟩
  obtain hempty | hentry := Nat.eq_zero_or_pos s.count
  · refine ⟨_, (emptyRead s).1, (exec_dequeue hinit hi).trans (congrArg _ (dequeue_of_empty hempty)), rfl, ?_,
      serDeviceWrite_latch_same _ _ _, fun j _ hj => ?_, fun h => absurd hempty (Nat.ne_of_gt h), fun _ => ?_⟩
    · rw [emptyRead_not_valid, hempty]; rfl
    · exact serDeviceWrite_latch_other { s with draws := _ } _ hj
    · refine ⟨fun hstale => ?_, fun hany => ?_, handOver_drawn_ssr _ _ hdeq, rfl⟩
      · rw [emptyRead_stale hstale]; exact ⟨rfl, rfl⟩
      · rw [emptyRead_any hany]; exact ⟨rfl, rfl⟩
  · refine ⟨_, _, (exec_dequeue hinit hi).trans (congrArg _ (dequeue_of_entry hentry)), rfl, ?_,
      serDeviceWrite_latch_same _ _ _, fun j hssr hj => ?_, fun _ => ?_, fun h => absurd h (Nat.ne_of_gt hentry)⟩
    · simp [hentry]
    · calc (handOver _ (takeOldest s).2).serRL[j]
        _ = (takeOldest s).2.serRL[j] := serDeviceWrite_latch_other _ _ hj
        _ = s.serRL[j] := serDeviceWrite_latch_other { s with silo := _, count := _ } _ hssr
    · refine ⟨rfl, rfl, fun k h hk => shiftDown_moved _ _ _ h hk, fun k h hk => shiftDown_kept _ _ _ h hk,
        fillField_of_ssr (handOver_takeOldest_ssr _ hdeq), ?_, rfl⟩
      rw [handOver_takeOldest_ssr _ hdeq, withFill_outside]

/-! ## Reads and writes of a serial register (R190, R191) -/

/-- Settles O44: a read of any other register takes the branch that returns its read latch. -/
theorem serialReadsReturnTheReadLatch : Obligations.SerialReadsReturnTheReadLatch := by
  intro s i hinit hi
  rw [exec_serDati, unlessInit_of_not_init _ hinit, serDati, if_neg hi]
  rfl

/-- The read latch a write leaves: the merge of R102, in SSR with the fill field put back (R191). -/
theorem serDato_latch (i : Fin 8) (acc : Access) (data : Word) (s : State) :
    (serDato i acc data s).serRL[i] =
      if i = s.cfg.serRegmap.ssr then
        withFill (mergeLanes s.serRL[i] data (s.cfg.serWritable[i] &&& laneMask acc)) s.count
      else mergeLanes s.serRL[i] data (s.cfg.serWritable[i] &&& laneMask acc) :=
  serDeviceWrite_latch_same _ i _

/-- A write of SSR leaves the fill field the count's (R191). -/
theorem serDato_ssr (acc : Access) (data : Word) (s : State) :
    (serDato s.cfg.serRegmap.ssr acc data s).ssr =
      withFill (mergeLanes s.ssr data (s.cfg.serWritable[s.cfg.serRegmap.ssr] &&& laneMask acc)) s.count :=
  (serDato_latch ..).trans (if_pos rfl)

/-- A bit of the read latch a write leaves is the merge's, but in SSR's fill field (R191). -/
theorem serDato_latch_bit (i : Fin 8) (acc : Access) (data : Word) (s : State) {k : Nat} (hk : k < 16)
    (hfill : i = s.cfg.serRegmap.ssr → ¬ (8 ≤ k ∧ k < 14)) :
    ((serDato i acc data s).serRL[i]).getLsbD k =
      (mergeLanes s.serRL[i] data (s.cfg.serWritable[i] &&& laneMask acc)).getLsbD k := by
  rw [serDato_latch]
  split
  next h => rw [withFill_bit _ _ _ hk, if_neg (hfill h)]
  next => rfl

/-- A write of another register leaves a read latch (R191). -/
theorem serDato_latch_other {i j : Fin 8} (acc : Access) (data : Word) (s : State) (h : j ≠ i) :
    (serDato i acc data s).serRL[j] = s.serRL[j] :=
  serDeviceWrite_latch_other (s.serBusWrite ..) _ h

/-- A serial write is the write of two latches and of no reply, nothing more (R191). -/
theorem serDato_frame (i : Fin 8) (acc : Access) (data : Word) (s : State) :
    serDato i acc data s =
      { s with serRL := (serDato i acc data s).serRL, serWL := (serDato i acc data s).serWL, reply := none } := rfl

/-! ## STORAGE_INT stays set (R191) -/

/-- A valid configuration keeps the three registers of the silo apart (10_state.md R41). -/
theorem serialNamesDistinct_of_valid {c : Config} (h : c.valid = true) : SerialNamesDistinct c := by
  have hnodup : [c.serRegmap.scr, c.serRegmap.deq, c.serRegmap.lpr, c.serRegmap.car, c.serRegmap.bcr, c.serRegmap.bar,
      c.serRegmap.brcr, c.serRegmap.ssr].Nodup := by
    simp only [Config.valid, Config.regmapValid, Bool.and_eq_true, decide_eq_true_eq] at h
    tauto
  simp only [List.nodup_cons, List.mem_cons, not_or] at hnodup
  exact ⟨by tauto, by tauto, by tauto⟩

/-- A valid configuration has STORAGE_INT outside the fill field (R38). -/
theorem storageBit_outside_fill {c : Config} (h : c.valid = true) :
    ¬ (8 ≤ c.ssrStorageIntBit.val ∧ c.ssrStorageIntBit.val < 14) := by
  have hmem : c.ssrStorageIntBit ∈ [6, 7, 14, 15] := by
    simp only [Config.valid, Bool.and_eq_true, decide_eq_true_eq] at h
    tauto
  revert hmem
  generalize c.ssrStorageIntBit = b
  revert b
  decide

/-- What the block itself does to SSR short of a reset: nothing, rewrite the fill field (R184), or set STORAGE_INT (R182). -/
def SsrBySilo (s t : State) : Prop :=
  t.cfg = s.cfg ∧
    (t.ssr = s.ssr ∨ (∃ n, t.ssr = withFill s.ssr n) ∨ t.ssr = setBit s.ssr s.cfg.ssrStorageIntBit)

/-- None of the three clears STORAGE_INT. -/
theorem SsrBySilo.storageInt {s t : State} (h : SsrBySilo s t) (hvalid : s.cfg.valid = true) (hset : storageInt s = true) :
    storageInt t = true := by
  obtain ⟨hcfg, hssr⟩ := h
  rw [Safety.storageInt, hcfg]
  obtain hssr | ⟨n, hssr⟩ | hssr := hssr
  · rw [hssr]; exact hset
  · rw [hssr, withFill_bit _ _ _ s.cfg.ssrStorageIntBit.isLt, if_neg (storageBit_outside_fill hvalid)]; exact hset
  · rw [hssr, setBit_bit]; simp

/-- With the serial read latches unchanged, so is SSR. -/
theorem SsrBySilo.of_latches {s t : State} (hcfg : t.cfg = s.cfg) (hlatches : t.serRL = s.serRL) : SsrBySilo s t :=
  ⟨hcfg, .inl (by simp only [State.ssr, hcfg, hlatches])⟩

/-- A read of an EAE register touches nothing of the serial controller (60_exceptions.md R225). -/
theorem eaeDati_ssrBySilo (r : EaeReg) (s : State) : SsrBySilo s (eaeDati r (readRoutine r) s) := by
  cases r <;> exact .of_latches rfl rfl

/-- The operation an EAE write starts keeps the configuration and the serial read latches (41_eae_mul_div.md R120). -/
theorem writeOp_cfg_serRL (r : EaeReg) (acc : Access) (v : Word) (s : State) :
    (writeOp r acc v s).cfg = s.cfg ∧ (writeOp r acc v s).serRL = s.serRL := by
  cases r <;> cases acc <;> exact ⟨rfl, rfl⟩

/-- A write of an EAE register touches nothing of the serial controller (R225). -/
theorem eaeDato_ssrBySilo (r : EaeReg) (acc : Access) (data : Word) (s : State) :
    SsrBySilo s (eaeDato r acc data (writeOp r acc) s) := by
  rw [eaeDato_operand]
  obtain ⟨hcfg, hlatches⟩ := writeOp_cfg_serRL r acc (operandAt s r acc data) (s.busWrite r data acc)
  exact .of_latches hcfg hlatches

theorem enqueue_ssrBySilo (char line : Word) (pe fe ovr : Bool) {s : State} (h : s.cfg.serRegmap.scr ≠ s.cfg.serRegmap.ssr) :
    SsrBySilo s (enqueue char line pe fe ovr s) := by
  unfold enqueue
  split
  · rw [dropChar_requestWhen h]
    exact ⟨by simp [dropped], .inr (.inr (by simp))⟩
  · rw [storeChar_requestWhen _ h]
    exact ⟨by simp [stored], .inr (.inl ⟨s.count + 1, by simp⟩)⟩

theorem dequeue_ssrBySilo {s : State} (h : s.cfg.serRegmap.deq ≠ s.cfg.serRegmap.ssr) : SsrBySilo s (dequeue s) := by
  obtain hempty | hentry := Nat.eq_zero_or_pos s.count
  · rw [dequeue_of_empty hempty]
    exact ⟨rfl, .inl (handOver_drawn_ssr _ _ h)⟩
  · rw [dequeue_of_entry hentry]
    exact ⟨rfl, .inr (.inl ⟨_, handOver_takeOldest_ssr _ h⟩)⟩

theorem serDati_ssrBySilo (i : Fin 8) {s : State} (h : s.cfg.serRegmap.deq ≠ s.cfg.serRegmap.ssr) :
    SsrBySilo s (serDati i s) := by
  unfold serDati
  split
  · exact dequeue_ssrBySilo h
  · exact ⟨rfl, .inl rfl⟩

/-- A serial write leaves STORAGE_INT where the host may not write its bit (R191). -/
theorem serDato_storageInt (i : Fin 8) (acc : Access) (data : Word) {s : State} (hvalid : s.cfg.valid = true)
    (hmask : (s.cfg.serWritable[s.cfg.serRegmap.ssr]).getLsbD s.cfg.ssrStorageIntBit = false) :
    storageInt (serDato i acc data s) = storageInt s := by
  by_cases hi : i = s.cfg.serRegmap.ssr
  · subst hi
    refine (serDato_latch_bit _ acc data s s.cfg.ssrStorageIntBit.isLt fun _ => storageBit_outside_fill hvalid).trans ?_
    rw [mergeLanes_bit, BitVec.getLsbD_and, hmask]
    rfl
  · exact congrArg (·.getLsbD s.cfg.ssrStorageIntBit.val) (serDato_latch_other acc data s (Ne.symm hi))

/-- No operation but a reset clears STORAGE_INT, if the host may not write it (R191). -/
theorem exec_keeps_storageInt {i : Instr} {s t : State} (hvalid : s.cfg.valid = true) (hreset : isReset i = false)
    (h : exec i s = .next t) (hmask : (s.cfg.serWritable[s.cfg.serRegmap.ssr]).getLsbD s.cfg.ssrStorageIntBit = false)
    (hset : storageInt s = true) : storageInt t = true := by
  obtain ⟨hscr, hdeq, -⟩ := serialNamesDistinct_of_valid hvalid
  have ran : ∀ {u}, unlessInit s u = .next t → storageInt u = true → storageInt t = true := fun hu hint =>
    (unlessInit_eq_next_iff.mp hu).2 ▸ hint
  induction i using instr_shapes with
  | eaeRead r => exact ran (exec_eaeDati r s ▸ h) ((eaeDati_ssrBySilo r s).storageInt hvalid hset)
  | eaeWrite r acc data => exact ran (exec_eaeDato r acc data s ▸ h) ((eaeDato_ssrBySilo r acc data s).storageInt hvalid hset)
  | serRead j => exact ran (exec_serDati j s ▸ h) ((serDati_ssrBySilo j.toFin hdeq).storageInt hvalid hset)
  | serWrite j acc data =>
    exact ran (exec_serDato j acc data s ▸ h) ((serDato_storageInt j.toFin acc data hvalid hmask).trans hset)
  | enq char line pe fe ovr => exact ran h ((enqueue_ssrBySilo char line pe fe ovr hscr).storageInt hvalid hset)
  | deq => exact ran h ((dequeue_ssrBySilo hdeq).storageInt hvalid hset)
  | init => cases hreset
  | dclo => cases hreset
  | aclo => cases h; exact hset
  | initOff => cases h; exact hset

/-- Settles O45: the read latch takes the same merge as the write latch (O13), outside the fill field of SSR; and no operation but a reset
clears STORAGE_INT. -/
theorem serialWritesReachTheRegisterValue : Obligations.SerialWritesReachTheRegisterValue := by
  refine ⟨fun s i acc data hinit => ?_, fun i s t hvalid hreset h hmask hset =>
    exec_keeps_storageInt hvalid hreset h hmask hset⟩
  obtain ⟨t, hexec, -, hother, hself⟩ := BusInterface.busWritesChangeExactlyTheSelectedWritableBits.2 s i acc data hinit
  obtain rfl : serDato i.toFin acc data s = t := (unlessInit_eq_next_iff.mp (exec_serDato i acc data s ▸ hexec)).2
  refine ⟨_, hexec, fun k hk hout => ?_, fun hssr => ?_, hself,
    fun j hj => ⟨serDato_latch_other acc data s hj, hother j hj⟩, serDato_frame ..⟩
  · rw [serDato_latch_bit _ _ _ _ hk fun hssr => by have := hout hssr; omega]
    exact BusInterface.mergeLanes_lane_bit _ _ _ _ hk
  · rw [hssr]
    exact fillField_of_ssr (serDato_ssr ..)

end Sys2Proof.Proofs.Silo

/-! PROOFS. The reset and hazard statements (70_reset_and_hazards.md): the reset of INIT and DCLO (R240, R241, R243), the idle ACLO (R242),
and what the INIT interval admits (R244). -/

namespace Sys2Proof.Proofs.Reset

open Sys2Proof.Machine Sys2Proof.Safety Sys2Proof.Laws

/-! ## Admission in the INIT interval (R244) -/

/-- Every bus cycle and receive-port event passes the one admission check. -/
theorem exec_of_not_signal {i : Instr} (h : isSignal i = false) (s : State) : ∃ t, exec i s = unlessInit s t := by
  induction i using instr_shapes with
  | eaeRead r => exact ⟨_, exec_eaeDati r s⟩
  | eaeWrite r acc data => exact ⟨_, exec_eaeDato r acc data s⟩
  | serRead j => exact ⟨_, exec_serDati j s⟩
  | serWrite j acc data => exact ⟨_, exec_serDato j acc data s⟩
  | enq char line pe fe ovr => exact ⟨_, exec_enq char line pe fe ovr s⟩
  | deq => exact ⟨_, exec_deq s⟩
  | init | dclo | aclo | initOff => cases h

/-- While INIT is asserted that check refuses. -/
theorem exec_refused_during_init {i : Instr} (h : isSignal i = false) {s : State} (hinit : s.initAsserted = true) :
    exec i s = .refused .cycleDuringInit := by
  obtain ⟨t, hexec⟩ := exec_of_not_signal h s
  rw [hexec, unlessInit_of_init t hinit]

/-- There are four signals (30_encoding.md R76). -/
theorem isSignal_iff {i : Instr} : isSignal i = true ↔ i = .init ∨ i = .dclo ∨ i = .aclo ∨ i = .initOff := by
  cases i <;> simp [isSignal]

/-- A signal is admitted whether or not INIT is asserted; INIT opens the interval, its deassertion closes it, and DCLO and ACLO leave it. -/
theorem exec_signal_interval {i : Instr} (h : isSignal i = true) (s : State) :
    ∃ t, exec i s = .next t ∧ (t.initAsserted = true ↔ i = .init ∨ (s.initAsserted = true ∧ i ≠ .initOff)) := by
  obtain rfl | rfl | rfl | rfl := isSignal_iff.mp h
  · exact ⟨_, exec_init s, by simp⟩
  · exact ⟨_, exec_dclo s, by simp⟩
  · exact ⟨_, exec_aclo s, by simp⟩
  · exact ⟨_, exec_initOff s, by simp⟩

/-- Settles O10: every operation but the signals goes through the one admission check, and of the signals only INIT and its deassertion touch
the interval. -/
theorem eventsDuringInitAreRefused : Obligations.EventsDuringInitAreRefused :=
  ⟨fun _ _ hinit h => exec_refused_during_init h hinit, fun _ s h => exec_signal_interval h s, exec_initOff⟩

/-! ## What a reset leaves (R240 to R243) -/

/-- A reset is the power-on state but for the arrays it keeps (R243), the interval, the interrupts and the model's own fields. -/
theorem resetBlock_eq_powerOn (s : State) :
    resetBlock s = { State.powerOn s.cfg s.silo s.carLine s.bcrLine with
      initAsserted := s.initAsserted, irqLog := s.irqLog, pending := s.pending, reply := s.reply, inputs := s.inputs
      draws := s.draws } := rfl

/-- Settles O50: both signals run the one reset, which is the power-on state over the kept arrays; only INIT opens the interval. -/
theorem initAndDcloReset : Obligations.InitAndDcloReset := fun s =>
  ⟨⟨_, exec_init s, rfl, by rw [resetBlock_eq_powerOn]; rfl⟩,
    _, exec_dclo s, id, by rw [resetBlock_eq_powerOn]; rfl⟩

/-- Settles O51: ACLO clears the model's reply and nothing else. -/
theorem acloChangesNothing : Obligations.AcloChangesNothing := exec_aclo

end Sys2Proof.Proofs.Reset

/-! PROOFS. Encoding and decoding are inverse (30_encoding.md R70 to R77). -/

namespace Sys2Proof.Proofs.RoundTrip

open Sys2Proof.Machine Sys2Proof.Laws

/-! ## The descriptor of each shape of operation (R74 to R76) -/

theorem encodeDesc_eaeDati (r : EaeReg) : encodeDesc (eaeDatiInstr r) = cycleDesc false .word false r.idx := by
  cases r <;> rfl

theorem encodeDesc_eaeDato (r : EaeReg) (acc : Access) (data : Word) :
    encodeDesc (eaeDatoInstr r acc data) = cycleDesc false acc true r.idx := by
  cases r <;> cases acc <;> rfl

theorem encodeDesc_serDati (j : BitVec 3) : encodeDesc (serDatiInstr j) = cycleDesc true .word false j := by
  revert j; decide

theorem encodeDesc_serDato (j : BitVec 3) (acc : Access) (data : Word) :
    encodeDesc (serDatoInstr j acc data) = cycleDesc true acc true j := by
  obtain ⟨hword, hbytel, hbyteh⟩ := cycleDesc_ser j
  cases acc with
  | word => exact hword.symm
  | bytel => exact hbytel.symm
  | byteh => exact hbyteh.symm

/-- A write's data travels beside its descriptor (R72). -/
theorem encodeOperands_eaeDato_data (r : EaeReg) (acc : Access) (data : Word) :
    (encodeOperands (eaeDatoInstr r acc data)).data = data := by
  cases r <;> cases acc <;> rfl

theorem encodeOperands_serDato_data (j : BitVec 3) (acc : Access) (data : Word) :
    (encodeOperands (serDatoInstr j acc data)).data = data := by
  cases acc <;> rfl

/-! ## The decoder on each kind of descriptor -/

theorem decode_enq (o : EventOperands) : decode 0x080 o = .ok (enqInstr o) := rfl

/-- A mask of the low n bits keeps a word that fits in them. -/
theorem and_lowMask_of_lt {w : Word} {n : Nat} (hn : n ≤ 16) (h : w.toNat < 2 ^ n) :
    w &&& BitVec.ofNat 16 (2 ^ n - 1) = w := by
  have hle : 2 ^ n ≤ 2 ^ 16 := Nat.pow_le_pow_right (by decide) hn
  apply BitVec.eq_of_toNat_eq
  rw [BitVec.toNat_and, BitVec.toNat_ofNat, Nat.mod_eq_of_lt (by omega), Nat.and_two_pow_sub_one_of_lt_two_pow h]

/-- Settles O1: bus cycles shape by shape through their fields; an enqueue that fits is not changed by the decoder's masks. -/
theorem decodeAfterEncodeIsIdentity : Obligations.DecodeAfterEncodeIsIdentity := by
  intro i hwf
  unfold encode
  induction i using instr_shapes with
  | eaeRead r => simp [encodeDesc_eaeDati, Encoding.decode_cycleDesc_dati]
  | eaeWrite r acc data =>
    simp [encodeDesc_eaeDato, Encoding.decode_cycleDesc_dato, encodeOperands_eaeDato_data]
  | serRead j => simp [encodeDesc_serDati, Encoding.decode_cycleDesc_dati]
  | serWrite j acc data =>
    simp [encodeDesc_serDato, Encoding.decode_cycleDesc_dato, encodeOperands_serDato_data]
  | enq char line pe fe ovr =>
    simp only [Instr.wellFormed, charFits, lineFits, Bool.and_eq_true, decide_eq_true_eq] at hwf
    obtain ⟨hchar, hline⟩ := hwf
    have hc : char &&& 0x00FF = char := and_lowMask_of_lt (n := 8) (by decide) hchar
    have hl : line &&& 0x000F = line := and_lowMask_of_lt (n := 4) (by decide) hline
    refine (decode_enq _).trans ?_
    simp only [enqInstr, encodeOperands, hc, hl]
  | deq | init | dclo | aclo | initOff => rfl

/-! ## A descriptor is its fields (R70) -/

/-- Two descriptors with the same fields are the same. -/
theorem desc_ext {d e : Desc} (hkind : descKind d = descKind e) (hblk : descBlk d = descBlk e) (hacc : descAcc d = descAcc e)
    (hctl : descCtl d = descCtl e) (hidx : descIdx d = descIdx e) : d = e := by
  have bit : ∀ n, d.getLsbD n = e.getLsbD n → d.toNat / 2 ^ n % 2 = e.toNat / 2 ^ n % 2 := by
    intro n h
    simp only [BitVec.getLsbD, Nat.testBit_eq_decide_div_mod_eq, decide_eq_decide] at h
    omega
  have hkind' := congrArg BitVec.toNat hkind
  have hacc' := congrArg BitVec.toNat hacc
  have hidx' := congrArg BitVec.toNat hidx
  have hblk' := bit 6 hblk
  have hctl' := bit 3 hctl
  simp only [Encoding.descKind_toNat, Encoding.descAcc_toNat, descIdx, BitVec.extractLsb'_toNat, Nat.shiftRight_zero] at *
  apply BitVec.eq_of_toNat_eq
  omega

/-- An access mode has one field value (R70). -/
theorem decodeAccess_inj {a b : BitVec 2} {acc : Access} (ha : decodeAccess a = some acc) (hb : decodeAccess b = some acc) :
    a = b := by
  revert a b
  cases acc <;> decide

/-- A bus cycle's descriptor is the one formed from its fields. -/
theorem eq_cycleDesc {d : Desc} {acc : Access} (hkind : descKind d = 0) (hacc : decodeAccess (descAcc d) = some acc) :
    d = cycleDesc (descBlk d) acc (descCtl d) (descIdx d) := by
  obtain ⟨hkind', hblk', hacc', hctl', hidx'⟩ := Encoding.cycleDesc_fields (descBlk d) acc (descCtl d) (descIdx d)
  exact desc_ext (hkind.trans hkind'.symm) hblk'.symm (decodeAccess_inj hacc hacc') hctl'.symm hidx'.symm

/-! ## The operation read has the descriptor it was read from -/

/-- The operation reads back as the descriptor it came from, and its operands fit (R72). -/
def ReadFrom (d : Desc) (i : Instr) : Prop := encodeDesc i = d ∧ i.wellFormed = true

theorem readFrom_dato {d : Desc} {blk : Bool} {acc : Access} {i : BitVec 3} (hd : d = cycleDesc blk acc true i) (data : Word) :
    ReadFrom d (if blk then serDatoInstr i acc data else eaeDatoInstr (.ofIdx i) acc data) := by
  subst hd
  cases blk with
  | false => exact ⟨by simp [encodeDesc_eaeDato], by cases EaeReg.ofIdx i <;> cases acc <;> rfl⟩
  | true => exact ⟨encodeDesc_serDato .., by cases acc <;> rfl⟩

theorem readFrom_dati {d : Desc} {blk : Bool} {i : BitVec 3} (hd : d = cycleDesc blk .word false i) :
    ReadFrom d (if blk then serDatiInstr i else eaeDatiInstr (.ofIdx i)) := by
  subst hd
  cases blk with
  | false => exact ⟨by simp [encodeDesc_eaeDati], by cases EaeReg.ofIdx i <;> rfl⟩
  | true => exact ⟨encodeDesc_serDati i, by revert i; decide⟩

theorem decodeCycle_readFrom {d : Desc} {o : EventOperands} {i : Instr} (hkind : descKind d = 0)
    (h : decodeCycle d o = .ok i) : ReadFrom d i := by
  unfold decodeCycle at h
  split at h
  · cases h
  next acc hacc =>
    have hd := eq_cycleDesc hkind hacc
    split at h
    case isTrue hctl =>
      cases h
      exact readFrom_dato (hctl ▸ hd) o.data
    case isFalse hctl =>
      split at h
      · next hword =>
        cases h
        exact readFrom_dati (by rw [← hword, ← Bool.eq_false_iff.mpr hctl]; exact hd)
      · cases h

/-- A receive-port event that decodes has one of two descriptors (R76, R77). -/
theorem portDesc_cases {d : Desc} {o : EventOperands} {i : Instr} (hkind : descKind d = 1) (h : decodePort d o = .ok i) :
    d = 0x080 ∨ d = 0x081 := by
  have hzero : d.extractLsb' 1 6 = 0 := by
    by_contra hne
    obtain ⟨why, herror⟩ := (Encoding.decodePort_error_iff d o).mpr hne
    cases h.symm.trans herror
  have hkind' : d.toNat / 128 = 1 := (Encoding.descKind_toNat d).symm.trans (congrArg BitVec.toNat hkind)
  have hzero' : d.toNat / 2 % 64 = 0 := (Encoding.portField_toNat d).symm.trans (congrArg BitVec.toNat hzero)
  bv_omega

/-- A signal that decodes has one of four descriptors (R76, R77). -/
theorem signalDesc_cases {d : Desc} {i : Instr} (hkind : descKind d = 2) (h : decodeSignal d = .ok i) :
    d = 0x100 ∨ d = 0x101 ∨ d = 0x102 ∨ d = 0x103 := by
  have hzero : d.extractLsb' 2 5 = 0 := by
    by_contra hne
    obtain ⟨why, herror⟩ := (Encoding.decodeSignal_error_iff d).mpr hne
    cases h.symm.trans herror
  have hkind' : d.toNat / 128 = 2 := (Encoding.descKind_toNat d).symm.trans (congrArg BitVec.toNat hkind)
  have hzero' : d.toNat / 4 % 32 = 0 := (Encoding.signalField_toNat d).symm.trans (congrArg BitVec.toNat hzero)
  bv_omega

/-- The masked operands of an enqueue have R72's widths. -/
theorem enqInstr_wellFormed (o : EventOperands) : (enqInstr o).wellFormed = true := by
  have hchar : (o.char &&& 0x00FF).toNat < 2 ^ 8 := Nat.and_lt_two_pow _ (by decide)
  have hline : (o.line &&& 0x000F).toNat < 2 ^ 4 := Nat.and_lt_two_pow _ (by decide)
  simp only [enqInstr, Instr.wellFormed, charFits, lineFits, hchar, hline, decide_true, Bool.and_self]

theorem decodePort_readFrom {d : Desc} {o : EventOperands} {i : Instr} (hkind : descKind d = 1)
    (h : decodePort d o = .ok i) : ReadFrom d i := by
  obtain rfl | rfl := portDesc_cases hkind h
  · cases h; exact ⟨rfl, enqInstr_wellFormed o⟩
  · cases h; exact ⟨rfl, rfl⟩

theorem decodeSignal_readFrom {d : Desc} {i : Instr} (hkind : descKind d = 2) (h : decodeSignal d = .ok i) : ReadFrom d i := by
  obtain rfl | rfl | rfl | rfl := signalDesc_cases hkind h <;> cases h <;> exact ⟨rfl, rfl⟩

/-- 70 descriptors decode: the count R77 gives. -/
theorem legal_descriptor_count : ((List.finRange 512).filter fun d => (decode (.ofFin d) .zero).toBool).length = 70 := by
  decide +kernel

/-- Settles O2: each kind of descriptor is determined by the fields the decoder reads of it; the count is closed. -/
theorem encodeAfterDecodeIsIdentityOnSeventyDescriptors : Obligations.EncodeAfterDecodeIsIdentityOnSeventyDescriptors := by
  refine ⟨fun d o i h => ?_, legal_descriptor_count⟩
  have kinds : ∀ k : BitVec 2, k = 0 ∨ k = 1 ∨ k = 2 ∨ k = 3 := by decide
  unfold decode at h
  rcases kinds (descKind d) with hk | hk | hk | hk
  · exact decodeCycle_readFrom hk (by simpa [hk] using h)
  · exact decodePort_readFrom hk (by simpa [hk] using h)
  · exact decodeSignal_readFrom hk (by simpa [hk] using h)
  · simp [hk] at h

/-! ## The descriptors of R75 and R76 -/

/-- Settles O5: R75's values are the descriptors formed from the register's index; R76's are closed. -/
theorem serialPortAndSignalWordsDecode : Obligations.SerialPortAndSignalWordsDecode := by
  refine ⟨fun i o => ?_, fun o => ⟨rfl, rfl, rfl, rfl, rfl, rfl⟩⟩
  obtain ⟨hword, hbytel, hbyteh⟩ := cycleDesc_ser i
  rw [← (cycleDesc_dati i).2, ← hword, ← hbytel, ← hbyteh]
  simp [Encoding.decode_cycleDesc_dati, Encoding.decode_cycleDesc_dato, serDatoInstr]

end Sys2Proof.Proofs.RoundTrip

/-! PROOFS. What every operation leaves unchanged: the ten shapes of an operation that ran, the frame of each device (60_exceptions.md R213,
R225), who requests interrupts (R215, R217), who changes write latches (40_bus_interface.md R101), and what a step takes and keeps
(20_memory.md R63, R68). -/

namespace Sys2Proof.Proofs.Frames

open Sys2Proof.Machine Sys2Proof.Safety Sys2Proof.Laws

/-! ## What ran -/

/-- `Ran s i t`: t is what operation i makes of s, shape by shape, once it is admitted (R106, R244). -/
inductive Ran (s : State) : Instr → State → Prop where
  | eaeRead (r : EaeReg) : Ran s (eaeDatiInstr r) (eaeDati r (readRoutine r) s)
  | eaeWrite (r : EaeReg) (acc : Access) (data : Word) :
      Ran s (eaeDatoInstr r acc data) (eaeDato r acc data (writeOp r acc) s)
  | serRead (j : BitVec 3) : Ran s (serDatiInstr j) (serDati j.toFin s)
  | serWrite (j : BitVec 3) (acc : Access) (data : Word) : Ran s (serDatoInstr j acc data) (serDato j.toFin acc data s)
  | enq (char line : Word) (pe fe ovr : Bool) : Ran s (.enq char line pe fe ovr) (enqueue char line pe fe ovr s)
  | deq : Ran s .deq (dequeue s)
  | init : Ran s .init ({ resetBlock s with initAsserted := true }.withReply none)
  | dclo : Ran s .dclo ((resetBlock s).withReply none)
  | aclo : Ran s .aclo (s.withReply none)
  | initOff : Ran s .initOff ({ s with initAsserted := false }.withReply none)

/-- An operation that answers a next state ran in one of the ten ways. -/
theorem ran_of_exec {i : Instr} {s t : State} (h : exec i s = .next t) : Ran s i t := by
  have admitted : ∀ {u}, unlessInit s u = .next t → Ran s i u → Ran s i t := fun hu hran =>
    (unlessInit_eq_next_iff.mp hu).2 ▸ hran
  induction i using instr_shapes with
  | eaeRead r => exact admitted (exec_eaeDati r s ▸ h) (.eaeRead r)
  | eaeWrite r acc data => exact admitted (exec_eaeDato r acc data s ▸ h) (.eaeWrite r acc data)
  | serRead j => exact admitted (exec_serDati j s ▸ h) (.serRead j)
  | serWrite j acc data => exact admitted (exec_serDato j acc data s ▸ h) (.serWrite j acc data)
  | enq char line pe fe ovr => exact admitted h (.enq char line pe fe ovr)
  | deq => exact admitted h .deq
  | init => cases h; exact .init
  | dclo => cases h; exact .dclo
  | aclo => cases h; exact .aclo
  | initOff => cases h; exact .initOff

/-- Settles O11: every operation but the signals passes the one admission check, which only the INIT interval fails; the signals pass
always. -/
theorem everyOperationCompletesOutsideInit : Obligations.EveryOperationCompletesOutsideInit := by
  intro i s hinit
  cases hsignal : isSignal i with
  | true => exact (Reset.exec_signal_interval hsignal s).imp fun _ h => h.1
  | false =>
    obtain ⟨t, hexec⟩ := Reset.exec_of_not_signal hsignal s
    exact ⟨t, hexec.trans (unlessInit_of_not_init t hinit)⟩

/-! ## The kinds of the shapes (30_encoding.md R74 to R76) -/

@[simp] theorem isReset_eaeDati (r : EaeReg) : isReset (eaeDatiInstr r) = false := by cases r <;> rfl
@[simp] theorem isReset_eaeDato (r : EaeReg) (acc : Access) (data : Word) : isReset (eaeDatoInstr r acc data) = false := by
  cases r <;> cases acc <;> rfl
@[simp] theorem isReset_serDati (j : BitVec 3) : isReset (serDatiInstr j) = false := by revert j; decide
@[simp] theorem isReset_serDato (j : BitVec 3) (acc : Access) (data : Word) : isReset (serDatoInstr j acc data) = false := by
  cases acc <;> rfl

/-- The window bit of a bus cycle's descriptor puts it below or above 0x040. -/
theorem cycleDesc_lt_iff (blk : Bool) (acc : Access) (ctl : Bool) (i : BitVec 3) :
    ((cycleDesc blk acc ctl i).toNat < 0x040 ↔ blk = false) ∧ (cycleDesc blk acc ctl i).toNat < 0x080 := by
  revert blk ctl i
  cases acc <;> decide

@[simp] theorem isEaeCycle_eaeDati (r : EaeReg) : isEaeCycle (eaeDatiInstr r) = true := by
  simp [isEaeCycle, RoundTrip.encodeDesc_eaeDati, cycleDesc_lt_iff]
@[simp] theorem isEaeCycle_eaeDato (r : EaeReg) (acc : Access) (data : Word) : isEaeCycle (eaeDatoInstr r acc data) = true := by
  simp [isEaeCycle, RoundTrip.encodeDesc_eaeDato, cycleDesc_lt_iff]
@[simp] theorem isEaeCycle_serDati (j : BitVec 3) : isEaeCycle (serDatiInstr j) = false := by
  simp [isEaeCycle, RoundTrip.encodeDesc_serDati, cycleDesc_lt_iff]
@[simp] theorem isEaeCycle_serDato (j : BitVec 3) (acc : Access) (data : Word) : isEaeCycle (serDatoInstr j acc data) = false := by
  simp [isEaeCycle, RoundTrip.encodeDesc_serDato, cycleDesc_lt_iff]

/-- No operation is of both devices. -/
theorem isSerialEvent_of_isEaeCycle {i : Instr} (h : isEaeCycle i = true) : isSerialEvent i = false := by
  simp only [isEaeCycle, isSerialEvent, decide_eq_true_eq, decide_eq_false_iff_not] at *
  omega

@[simp] theorem isDato_eaeDato (r : EaeReg) (acc : Access) (data : Word) : isDato (eaeDatoInstr r acc data) = true := by
  simp [isDato, RoundTrip.encodeDesc_eaeDato, Encoding.cycleDesc_fields]
@[simp] theorem isDato_serDato (j : BitVec 3) (acc : Access) (data : Word) : isDato (serDatoInstr j acc data) = true := by
  simp [isDato, RoundTrip.encodeDesc_serDato, Encoding.cycleDesc_fields]

/-! ## The frame of each shape -/

/-- From s to t only the EAE changed, and the reply (R225). -/
def EaeFrame (s t : State) : Prop :=
  t = { s with ac := t.ac, mq := t.mq, sc := t.sc, sr := t.sr, eaeRL := t.eaeRL, eaeWL := t.eaeWL, reply := t.reply }

/-- From s to t only the serial controller, its interrupts and the free values drawn changed, and the reply (R213, R225). -/
def SerialFrame (s t : State) : Prop :=
  t = { s with
    serRL := t.serRL, serWL := t.serWL, silo := t.silo, count := t.count, irqLog := t.irqLog, pending := t.pending
    draws := t.draws, reply := t.reply }

/-- An EAE read recomputes SR or publishes a read latch at most (43_eae_register_access.md R164 to R171). -/
theorem eaeDati_frame (r : EaeReg) (s : State) :
    eaeDati r (readRoutine r) s =
      { s with
        sr := (eaeDati r (readRoutine r) s).sr
        eaeRL := (eaeDati r (readRoutine r) s).eaeRL
        reply := (eaeDati r (readRoutine r) s).reply } := by
  cases r <;> rfl

theorem eaeDati_eaeFrame (r : EaeReg) (s : State) : EaeFrame s (eaeDati r (readRoutine r) s) := by
  cases r <;> rfl

/-- The operation a write starts commits new values of AC, MQ, SC and SR; only a byte write of SCSR starts none (41_eae_mul_div.md R120,
43_eae_register_access.md R163). -/
theorem writeOp_cases (r : EaeReg) (acc : Access) (v : Word) (s : State) :
    ((r ≠ .scsr ∨ acc = .word) ∧ ∃ ac mq sc sr, writeOp r acc v s = commit { s with ac := ac, mq := mq, sc := sc, sr := sr })
      ∨ ((r = .scsr ∧ acc ≠ .word) ∧ writeOp r acc v s = s) := by
  cases r with
  | scsr =>
    cases acc with
    | word => exact .inl ⟨.inr rfl, _, _, _, _, rfl⟩
    | bytel | byteh => exact .inr ⟨⟨rfl, by decide⟩, rfl⟩
  | div | ac | mq | mul | nor | lsh | ash => exact .inl ⟨.inl (by decide), _, _, _, _, rfl⟩

/-- An EAE write leaves a committed state, or, a byte write of SCSR, nothing but the merged write latch. -/
theorem eaeDato_cases (r : EaeReg) (acc : Access) (data : Word) (s : State) :
    ((r ≠ .scsr ∨ acc = .word) ∧ ∃ ac mq sc sr,
        eaeDato r acc data (writeOp r acc) s = RegisterAccess.afterLoad s r acc data ac mq sc sr)
      ∨ ((r = .scsr ∧ acc ≠ .word) ∧ eaeDato r acc data (writeOp r acc) s = (s.busWrite r data acc).withReply none) := by
  rw [eaeDato_operand]
  obtain ⟨hr, ac, mq, sc, sr, h⟩ | ⟨hr, h⟩ := writeOp_cases r acc (operandAt s r acc data) (s.busWrite r data acc)
  · exact .inl ⟨hr, ac, mq, sc, sr, congrArg (State.withReply · none) h⟩
  · exact .inr ⟨hr, congrArg (State.withReply · none) h⟩

theorem eaeDato_eaeFrame (r : EaeReg) (acc : Access) (data : Word) (s : State) :
    EaeFrame s (eaeDato r acc data (writeOp r acc) s) := by
  obtain ⟨-, ac, mq, sc, sr, h⟩ | ⟨-, h⟩ := eaeDato_cases r acc data s <;> rw [h] <;> rfl

/-- A dequeue changes the silo and read latches, and may draw a free value (44_silo.md R186, R187). -/
theorem dequeue_frame (s : State) :
    dequeue s =
      { s with
        serRL := (dequeue s).serRL
        silo := (dequeue s).silo
        count := (dequeue s).count
        draws := (dequeue s).draws
        reply := (dequeue s).reply } := by
  obtain hempty | hentry := Nat.eq_zero_or_pos s.count
  · rw [Silo.dequeue_of_empty hempty]; rfl
  · rw [Silo.dequeue_of_entry hentry]; rfl

/-- A serial read is a dequeue or changes the reply only (R186, R190). -/
theorem serDati_cases (i : Fin 8) (s : State) :
    (i = s.cfg.serRegmap.deq ∧ serDati i s = dequeue s)
      ∨ (i ≠ s.cfg.serRegmap.deq ∧ serDati i s = s.withReply (some (.word s.serRL[i]))) := by
  by_cases hi : i = s.cfg.serRegmap.deq
  · exact .inl ⟨hi, if_pos hi⟩
  · exact .inr ⟨hi, if_neg hi⟩

/-- A stored or a dropped character is followed by at most one request and the answer (R182). -/
theorem enqueue_cases (char line : Word) (pe fe ovr : Bool) (s : State) :
    (s.count ≤ 63 ∧ ∃ b, enqueue char line pe fe ovr s =
        (Silo.requestWhen b .alarm (Silo.stored (siloEntry char line pe fe ovr) s)).withReply (some (.accepted true)))
      ∨ (63 < s.count ∧ ∃ b, enqueue char line pe fe ovr s =
        (Silo.requestWhen b .storage (Silo.dropped s)).withReply (some (.accepted false))) := by
  by_cases hfull : 63 < s.count
  · exact .inr ⟨hfull, _, if_pos hfull⟩
  · exact .inl ⟨Nat.not_lt.mp hfull, _, if_neg hfull⟩

theorem dequeue_serialFrame (s : State) : SerialFrame s (dequeue s) := by
  unfold SerialFrame
  rw [dequeue_frame]

theorem serDati_serialFrame (i : Fin 8) (s : State) : SerialFrame s (serDati i s) := by
  obtain ⟨-, h⟩ | ⟨-, h⟩ := serDati_cases i s <;> rw [h]
  · exact dequeue_serialFrame s
  · rfl

theorem serDato_serialFrame (i : Fin 8) (acc : Access) (data : Word) (s : State) : SerialFrame s (serDato i acc data s) := rfl

theorem enqueue_serialFrame (char line : Word) (pe fe ovr : Bool) (s : State) :
    SerialFrame s (enqueue char line pe fe ovr s) := by
  obtain ⟨-, b, h⟩ | ⟨-, b, h⟩ := enqueue_cases char line pe fe ovr s <;> rw [h] <;> cases b <;> rfl

/-- Settles O49: each shape is of one device only, and has that device's frame. -/
theorem theTwoDevicesAreIsolated : Obligations.TheTwoDevicesAreIsolated := by
  refine ⟨fun i s t hi h => ?_, fun i s t hi h => ?_⟩
  · cases ran_of_exec h with
    | eaeRead r => exact eaeDati_eaeFrame r s
    | eaeWrite r acc data => exact eaeDato_eaeFrame r acc data s
    | serRead | serWrite => simp at hi
    | enq | deq | init | dclo | aclo | initOff => cases hi
  · cases ran_of_exec h with
    | eaeRead | eaeWrite => rw [isSerialEvent_of_isEaeCycle (by simp)] at hi; cases hi
    | serRead j => exact serDati_serialFrame j.toFin s
    | serWrite j acc data => exact serDato_serialFrame j.toFin acc data s
    | enq char line pe fe ovr => exact enqueue_serialFrame char line pe fe ovr s
    | deq => exact dequeue_serialFrame s
    | init | dclo | aclo | initOff => cases hi

/-! ## Write latches (40_bus_interface.md R101) -/

/-- Settles O14: reads, receive-port events and the two signals left have frames without the write latches. -/
theorem onlyWritesAndResetsChangeWriteLatches : Obligations.OnlyWritesAndResetsChangeWriteLatches := by
  intro i s t hdato hreset h
  cases ran_of_exec h with
  | eaeRead r => rw [eaeDati_frame]; exact ⟨rfl, rfl⟩
  | eaeWrite | serWrite => simp at hdato
  | serRead j =>
    obtain ⟨-, h⟩ | ⟨-, h⟩ := serDati_cases j.toFin s <;> rw [h]
    · rw [dequeue_frame]; exact ⟨rfl, rfl⟩
    · exact ⟨rfl, rfl⟩
  | enq char line pe fe ovr =>
    obtain ⟨-, b, h⟩ | ⟨-, b, h⟩ := enqueue_cases char line pe fe ovr s <;> rw [h, Silo.requestWhen_eq] <;> exact ⟨rfl, rfl⟩
  | deq => rw [dequeue_frame]; exact ⟨rfl, rfl⟩
  | init | dclo => cases hreset
  | aclo | initOff => exact ⟨rfl, rfl⟩

/-! ## Interrupts (60_exceptions.md R215, R217) -/

theorem EaeFrame.noRequest {s t : State} (h : EaeFrame s t) : NoRequest s t :=
  ⟨by rw [show t = _ from h], by rw [show t = _ from h]⟩

theorem dequeue_noRequest (s : State) : NoRequest s (dequeue s) := by rw [dequeue_frame]; exact ⟨rfl, rfl⟩

theorem serDati_noRequest (i : Fin 8) (s : State) : NoRequest s (serDati i s) := by
  obtain ⟨-, h⟩ | ⟨-, h⟩ := serDati_cases i s <;> rw [h]
  · exact dequeue_noRequest s
  · exact ⟨rfl, rfl⟩

/-- Settles O47: only an enqueue ends with a conditional request. -/
theorem onlyAnEnqueueRequestsAndOnlyOnce : Obligations.OnlyAnEnqueueRequestsAndOnlyOnce := by
  intro i s t h
  cases ran_of_exec h with
  | eaeRead r => exact .inl (eaeDati_eaeFrame r s).noRequest
  | eaeWrite r acc data => exact .inl (eaeDato_eaeFrame r acc data s).noRequest
  | serRead j => exact .inl (serDati_noRequest j.toFin s)
  | enq char line pe fe ovr =>
    obtain ⟨-, b, h⟩ | ⟨-, b, h⟩ := enqueue_cases char line pe fe ovr s <;> rw [h] <;> cases b
    · exact .inl ⟨rfl, rfl⟩
    · exact .inr ⟨rfl, .alarm, Silo.requestWhen_requested rfl .alarm (Silo.stored _ s)⟩
    · exact .inl ⟨rfl, rfl⟩
    · exact .inr ⟨rfl, .storage, Silo.requestWhen_requested rfl .storage (Silo.dropped s)⟩
  | deq => exact .inl (dequeue_noRequest s)
  | serWrite | init | dclo | aclo | initOff => exact .inl ⟨rfl, rfl⟩

/-- Settles O48: the set absorbs what it holds; an erased entry of a set without repetitions is gone. -/
theorem pendingRequestsAreIdempotentAndRemovable : Obligations.PendingRequestsAreIdempotentAndRemovable := by
  refine ⟨fun s kind hmem => requestIrq_pending_of_mem hmem, fun s kind kind' => ?_, fun s level slot rest hin hnodup => ?_⟩
  · exact requestIrq_pending_of_mem (s := requestIrq kind s) ((mem_requestIrq_pending ..).mpr (.inl rfl))
  · refine ⟨_, step_of_input hin, fun p => ?_, rfl⟩
    exact hnodup.mem_erase_iff.trans and_comm

/-! ## What a step takes and keeps (20_memory.md R63, R68) -/

/-- No operation changes the configuration or what is still to be delivered. -/
theorem exec_keeps_cfg_inputs {i : Instr} {s t : State} (h : exec i s = .next t) : t.cfg = s.cfg ∧ t.inputs = s.inputs := by
  have eae : ∀ {u}, EaeFrame s u → u.cfg = s.cfg ∧ u.inputs = s.inputs := fun h => by
    rw [show _ = _ from h]; exact ⟨rfl, rfl⟩
  have serial : ∀ {u}, SerialFrame s u → u.cfg = s.cfg ∧ u.inputs = s.inputs := fun h => by
    rw [show _ = _ from h]; exact ⟨rfl, rfl⟩
  cases ran_of_exec h with
  | eaeRead r => exact eae (eaeDati_eaeFrame r s)
  | eaeWrite r acc data => exact eae (eaeDato_eaeFrame r acc data s)
  | serRead j => exact serial (serDati_serialFrame j.toFin s)
  | serWrite j acc data => exact serial (serDato_serialFrame j.toFin acc data s)
  | enq char line pe fe ovr => exact serial (enqueue_serialFrame char line pe fe ovr s)
  | deq => exact serial (dequeue_serialFrame s)
  | init | dclo | aclo | initOff => exact ⟨rfl, rfl⟩

/-- Settles O12: the input is taken off before it is delivered, and nothing delivered changes the inputs or the configuration. -/
theorem stepsTakeInputsInOrderAndKeepTheConfiguration : Obligations.StepsTakeInputsInOrderAndKeepTheConfiguration := by
  intro s t h
  obtain ⟨hin, rfl⟩ | ⟨inp, rest, hin, ⟨_, _, -, rfl⟩ | ⟨_, _, -, -, rfl⟩ | ⟨i, hexec⟩⟩ := step_next_cases h
  · simp [hin]
  · simp [hin]
  · simp [hin]
  · obtain ⟨hcfg, hinputs⟩ := exec_keeps_cfg_inputs hexec
    exact ⟨hinputs.trans (by simp [hin]), hcfg⟩

end Sys2Proof.Proofs.Frames

/-! PROOFS. The silo as a bounded queue (44_silo.md R188, R189) and the invariant every step keeps (10_state.md R43, R44). -/

namespace Sys2Proof.Proofs.Invariant

open Sys2Proof.Machine Sys2Proof.Safety Sys2Proof.Laws Sys2Proof.Proofs.Frames

/-! ## The queue after each operation of the silo (R188) -/

/-- The queue is the array and the count (10_state.md R35, R36). -/
theorem queue_congr {s t : State} (hsilo : t.silo = s.silo) (hcount : t.count = s.count) : queue t = queue s := by
  rw [queue, queue, hsilo, hcount]

theorem queue_length {s : State} (h : s.count ≤ 64) : (queue s).length = s.count := by
  simp [queue, h]

theorem queue_of_count_zero {s : State} (h : s.count = 0) : queue s = [] := by simp [queue, h]

/-- Entry k of the queue is slot k of the array. -/
theorem queue_getElem {s : State} {k : Nat} (hk : k < 64) (hcount : k < (queue s).length) : (queue s)[k] = s.silo[k] := by
  simp [queue]

/-- A stored character is appended (R182, R188). -/
theorem queue_stored (e : Word) {s : State} (h : s.count ≤ 63) : queue (Silo.stored e s) = queue s ++ [e] := by
  have hlt : s.count < s.silo.toList.length := by simp; omega
  have hsilo : (Silo.stored e s).silo.toList = s.silo.toList.set s.count e := by simp [Silo.stored]
  have hcount : (Silo.stored e s).count = s.count + 1 := by simp [Silo.stored]
  rw [queue, hsilo, hcount, List.take_succ_eq_append_getElem (by simpa using hlt), List.getElem_set_self,
    List.take_set_of_le (Nat.le_refl _)]
  rfl

/-- Taking the oldest entry leaves the rest in order (R186, R188). -/
theorem queue_takeOldest {s : State} (hpos : 0 < s.count) (hle : s.count ≤ 64) :
    queue s = s.silo[0] :: queue (takeOldest s).2 := by
  have hcount : (takeOldest s).2.count = s.count - 1 := rfl
  have hsilo : (takeOldest s).2.silo = shiftDown s.silo s.count := rfl
  apply List.ext_getElem
  · simp only [List.length_cons, queue_length hle, queue_length (s := (takeOldest s).2) (by omega), hcount]
    omega
  · intro k hk _
    have hk' : k < s.count := queue_length hle ▸ hk
    rw [queue_getElem (by omega) hk]
    cases k with
    | zero => rfl
    | succ k =>
      rw [List.getElem_cons_succ, queue_getElem (by omega), hsilo, shiftDown_moved _ _ _ (by omega) hk']

/-- Every valid entry has its valid bit, so reading it sets nothing (R183, R186). -/
theorem or_valid_bit {w : Word} (h : w.getLsbD 15 = true) : w ||| 0x8000 = w := by
  apply BitVec.eq_of_getLsbD_eq
  intro k hk
  by_cases h15 : k = 15
  · simp [h15, h]
  · have : (0x8000#16).getLsbD k = false := by
      revert k; decide
    simp [this]

/-- A dequeue takes the oldest entry and returns it, or finds none (R186, R187). -/
theorem dequeue_queue {s : State} (hinv : SiloInv s) :
    (queue s = [] ∧ queue (dequeue s) = [] ∧ ∃ w, (dequeue s).reply = some (.word w) ∧ w.getLsbD 15 = false)
      ∨ ∃ w, queue s = w :: queue (dequeue s) ∧ (dequeue s).reply = some (.word w) := by
  obtain ⟨hle, -, hvalid⟩ := hinv
  obtain hempty | hentry := Nat.eq_zero_or_pos s.count
  · have hq := queue_of_count_zero hempty
    rw [Silo.dequeue_of_empty hempty]
    exact .inl ⟨hq, hq, _, rfl, Silo.emptyRead_not_valid s⟩
  · have hq := queue_takeOldest hentry hle
    have hbit : s.silo[0].getLsbD 15 = true := hvalid _ (hq ▸ List.mem_cons_self)
    rw [Silo.dequeue_of_entry hentry, or_valid_bit hbit]
    exact .inr ⟨_, hq, rfl⟩

/-! ## The bounded queue's rule (R188, R189) -/

/-- The rule of an event that is no enqueue. -/
theorem queueStep_of_not_enqueue {c : Config} {i : Instr} (hi : isEnqueue i = false) {before after : List Word}
    {reply : Option Reply}
    (h : if isReset i then after = []
      else if isDequeue c i then
        (before = [] ∧ after = [] ∧ ∃ w, reply = some (.word w) ∧ w.getLsbD 15 = false)
          ∨ ∃ w, before = w :: after ∧ reply = some (.word w)
      else after = before) : QueueStep c i before after reply := by
  cases i with
  | enq => cases hi
  | _ => exact h

theorem isEnqueue_eaeDati (r : EaeReg) : isEnqueue (eaeDatiInstr r) = false := by cases r <;> rfl
theorem isEnqueue_eaeDato (r : EaeReg) (acc : Access) (data : Word) : isEnqueue (eaeDatoInstr r acc data) = false := by
  cases r <;> cases acc <;> rfl
theorem isEnqueue_serDati (j : BitVec 3) : isEnqueue (serDatiInstr j) = false := by revert j; decide
theorem isEnqueue_serDato (j : BitVec 3) (acc : Access) (data : Word) : isEnqueue (serDatoInstr j acc data) = false := by
  cases acc <;> rfl

/-- A dequeue is an event of the serial controller that writes no register (30_encoding.md R75, R76). -/
theorem serialEvent_of_isDequeue {c : Config} {i : Instr} (h : isDequeue c i = true) : isSerialEvent i = true ∧ isDato i = false := by
  simp only [isDequeue, Bool.or_eq_true, decide_eq_true_eq] at h
  obtain rfl | rfl := h
  · exact ⟨rfl, rfl⟩
  · generalize (BitVec.ofFin c.serRegmap.deq : BitVec 3) = j
    revert j
    decide

theorem isDequeue_of_isEaeCycle (c : Config) {i : Instr} (h : isEaeCycle i = true) : isDequeue c i = false :=
  Bool.eq_false_iff.mpr fun hd => by simpa [isSerialEvent_of_isEaeCycle h] using serialEvent_of_isDequeue hd

theorem isDequeue_of_isDato (c : Config) {i : Instr} (h : isDato i = true) : isDequeue c i = false :=
  Bool.eq_false_iff.mpr fun hd => by simpa [h] using serialEvent_of_isDequeue hd

theorem isDequeue_of_isSignal (c : Config) {i : Instr} (h : isSignal i = true) : isDequeue c i = false :=
  Bool.eq_false_iff.mpr fun hd => by
    obtain ⟨hserial, -⟩ := serialEvent_of_isDequeue hd
    obtain rfl | rfl | rfl | rfl := Reset.isSignal_iff.mp h <;> cases hserial

/-- Of the serial reads only that of the dequeue register is a dequeue (44_silo.md R186, R190). -/
theorem isDequeue_serDati_iff (c : Config) (j : BitVec 3) : isDequeue c (serDatiInstr j) = true ↔ j.toFin = c.serRegmap.deq := by
  have hinj : ∀ j k : BitVec 3, serDatiInstr j = serDatiInstr k ↔ j = k := by decide
  have hport : ∀ j : BitVec 3, serDatiInstr j ≠ .deq := by decide
  simp only [isDequeue, hport j, decide_false, Bool.false_or, decide_eq_true_eq, hinj]
  exact ⟨fun h => h ▸ rfl, fun h => h ▸ rfl⟩

/-- An event that is neither an enqueue, a reset nor a dequeue leaves the queue. -/
theorem queueStep_of_quiet {c : Config} {i : Instr} (henq : isEnqueue i = false) (hreset : isReset i = false)
    (hdeq : isDequeue c i = false) {before after : List Word} (h : after = before) (reply : Option Reply) :
    QueueStep c i before after reply :=
  queueStep_of_not_enqueue henq (by rw [hreset, hdeq]; exact h)

/-- An event that dequeues. -/
theorem queueStep_of_dequeue {i : Instr} {s : State} (henq : isEnqueue i = false) (hreset : isReset i = false)
    (hdeq : isDequeue s.cfg i = true) (hinv : SiloInv s) :
    QueueStep s.cfg i (queue s) (queue (dequeue s)) (dequeue s).reply :=
  queueStep_of_not_enqueue henq (by rw [hreset, hdeq]; exact dequeue_queue hinv)

theorem queue_of_eaeFrame {s t : State} (h : EaeFrame s t) : queue t = queue s := by
  rw [show t = _ from h]; rfl

/-- An enqueue appends its entry when there is room, and drops it when there is none (R182, R188). -/
theorem enqueue_queueStep (char line : Word) (pe fe ovr : Bool) {s : State} (h : s.count ≤ 64) :
    QueueStep s.cfg (.enq char line pe fe ovr) (queue s) (queue (enqueue char line pe fe ovr s))
      (enqueue char line pe fe ovr s).reply := by
  simp only [QueueStep, queue_length h]
  obtain ⟨hroom, b, henq⟩ | ⟨hfull, b, henq⟩ := enqueue_cases char line pe fe ovr s <;> rw [henq]
  · rw [if_pos (by omega)]
    refine ⟨_, siloEntry_fields char line pe fe ovr, ?_, rfl⟩
    rw [← queue_stored _ hroom]
    exact queue_congr (by simp) (by simp)
  · rw [if_neg (by omega)]
    exact ⟨queue_congr (by simp [Silo.dropped]) (by simp [Silo.dropped]), rfl⟩

/-- Settles O46: an enqueue, a dequeue and a reset follow the queue's rule, and every other shape leaves array and count. -/
theorem siloRefinesABoundedQueue : Obligations.SiloRefinesABoundedQueue := by
  intro i s t _ hinv h
  cases ran_of_exec h with
  | eaeRead r =>
    exact queueStep_of_quiet (isEnqueue_eaeDati r) (isReset_eaeDati r) (isDequeue_of_isEaeCycle _ (by simp))
      (queue_of_eaeFrame (eaeDati_eaeFrame r s)) _
  | eaeWrite r acc data =>
    exact queueStep_of_quiet (isEnqueue_eaeDato r acc data) (isReset_eaeDato r acc data) (isDequeue_of_isEaeCycle _ (by simp))
      (queue_of_eaeFrame (eaeDato_eaeFrame r acc data s)) _
  | serRead j =>
    obtain ⟨hj, hread⟩ | ⟨hj, hread⟩ := serDati_cases j.toFin s <;> rw [hread]
    · exact queueStep_of_dequeue (isEnqueue_serDati j) (isReset_serDati j) ((isDequeue_serDati_iff _ j).mpr hj) hinv
    · exact queueStep_of_quiet (isEnqueue_serDati j) (isReset_serDati j)
        (Bool.eq_false_iff.mpr fun hd => hj ((isDequeue_serDati_iff _ j).mp hd)) rfl _
  | serWrite j acc data =>
    exact queueStep_of_quiet (isEnqueue_serDato j acc data) (isReset_serDato j acc data) (isDequeue_of_isDato _ (by simp)) rfl _
  | enq char line pe fe ovr => exact enqueue_queueStep char line pe fe ovr hinv.1
  | deq => exact queueStep_of_dequeue rfl rfl rfl hinv
  | init | dclo => exact queueStep_of_not_enqueue rfl (queue_of_count_zero rfl)
  | aclo | initOff => exact queueStep_of_quiet rfl rfl (isDequeue_of_isSignal _ rfl) rfl _

/-! ## The EAE part of a good state (10_state.md R32, R33, R44) -/

theorem eaeInv_of_serialFrame {s t : State} (h : SerialFrame s t) (hinv : EaeInv s) : EaeInv t := by
  rw [show t = _ from h]; exact hinv

/-- A read publishes SC to NOR at most, and otherwise only to SCSR's read latch (43_eae_register_access.md R164, R167). -/
theorem eaeDati_eaeInv (r : EaeReg) {s : State} (hinv : EaeInv s) : EaeInv (eaeDati r (readRoutine r) s) := by
  obtain ⟨hac, hmq, hnor, hlatches⟩ := hinv
  cases r with
  | nor => exact ⟨hac, hmq, rfl, hlatches⟩
  | div | ac | mq | mul | scsr | lsh | ash => exact ⟨hac, hmq, hnor, hlatches⟩

/-- No write cycle changes NOR's write latch (10_state.md R32). -/
theorem busWrite_keeps_nor (s : State) (r : EaeReg) (acc : Access) (data : Word) :
    (s.eaeWL.set r (latchAfter s r acc data)).get .nor = s.eaeWL.get .nor := by
  by_cases h : r = .nor
  · subst h
    rw [latches_get_set_same, latchAfter, mergeLanes_nor]
  · exact latches_get_set_other _ _ (Ne.symm h)

/-- A commit publishes AC, MQ and SC, and no operation the latches of DIV, MUL, LSH and ASH (41_eae_mul_div.md R120). -/
theorem eaeDato_eaeInv (r : EaeReg) (acc : Access) (data : Word) {s : State} (hinv : EaeInv s) :
    EaeInv (eaeDato r acc data (writeOp r acc) s) := by
  obtain ⟨hac, hmq, hnor, hdiv, hmul, hlsh, hash, hwl⟩ := hinv
  have hwl' := (busWrite_keeps_nor s r acc data).trans hwl
  obtain ⟨-, ac, mq, sc, sr, h⟩ | ⟨-, h⟩ := eaeDato_cases r acc data s <;> rw [h]
  · exact ⟨rfl, rfl, rfl, hdiv, hmul, hlsh, hash, hwl'⟩
  · exact ⟨hac, hmq, hnor, hdiv, hmul, hlsh, hash, hwl'⟩

theorem exec_keeps_eaeInv {i : Instr} {s t : State} (hinv : EaeInv s) (h : exec i s = .next t) : EaeInv t := by
  cases ran_of_exec h with
  | eaeRead r => exact eaeDati_eaeInv r hinv
  | eaeWrite r acc data => exact eaeDato_eaeInv r acc data hinv
  | serRead j => exact eaeInv_of_serialFrame (serDati_serialFrame j.toFin s) hinv
  | serWrite j acc data => exact eaeInv_of_serialFrame (serDato_serialFrame j.toFin acc data s) hinv
  | enq char line pe fe ovr => exact eaeInv_of_serialFrame (enqueue_serialFrame char line pe fe ovr s) hinv
  | deq => exact eaeInv_of_serialFrame (dequeue_serialFrame s) hinv
  | init | dclo => exact ⟨rfl, rfl, rfl, rfl, rfl, rfl, rfl, rfl⟩
  | aclo | initOff => exact hinv

/-! ## The silo part (R35 to R38, R44) -/

/-- Array and count kept, and the fill field with them. -/
theorem siloInv_of_unchanged {s t : State} (hinv : SiloInv s) (hsilo : t.silo = s.silo) (hcount : t.count = s.count)
    (hfill : fillField t = fillField s) : SiloInv t := by
  obtain ⟨hle, hfield, hvalid⟩ := hinv
  exact ⟨hcount ▸ hle, by rw [hfill, hcount, hfield], by rw [queue_congr hsilo hcount]; exact hvalid⟩

theorem siloInv_of_eaeFrame {s t : State} (h : EaeFrame s t) (hinv : SiloInv s) : SiloInv t := by
  rw [show t = _ from h]; exact hinv

/-- The fill field is bits 13..8 of SSR and no others (R38). -/
theorem fillField_of_bits {s t : State} (h : ∀ k, 8 ≤ k ∧ k < 14 → t.ssr.getLsbD k = s.ssr.getLsbD k) :
    fillField t = fillField s := by
  have hfield : t.ssr.extractLsb' 8 6 = s.ssr.extractLsb' 8 6 := by
    apply BitVec.eq_of_getLsbD_eq
    intro k hk
    simp only [BitVec.getLsbD_extractLsb', hk, decide_true, Bool.true_and]
    exact h (8 + k) (by omega)
  simpa [fillField, Nat.shiftRight_eq_div_pow] using congrArg BitVec.toNat hfield

/-- A request and an answer leave the silo part. -/
theorem siloInv_answered {s : State} (hinv : SiloInv s) (b : Bool) (kind : IrqKind) (reply : Option Reply) :
    SiloInv ((Silo.requestWhen b kind s).withReply reply) := by
  cases b <;> exact hinv

theorem stored_siloInv {e : Word} (he : e.getLsbD 15 = true) {s : State} (hroom : s.count ≤ 63) (hinv : SiloInv s) :
    SiloInv (Silo.stored e s) := by
  obtain ⟨-, -, hvalid⟩ := hinv
  refine ⟨Nat.succ_le_succ hroom, Silo.fillField_of_ssr (Silo.stored_ssr e s), fun w hw => ?_⟩
  rw [queue_stored e hroom, List.mem_append, List.mem_singleton] at hw
  obtain hw | rfl := hw
  · exact hvalid w hw
  · exact he

/-- STORAGE_INT is outside the fill field, so setting it keeps the fill (R38, R182). -/
theorem dropped_siloInv {s : State} (hvalid : s.cfg.valid = true) (hinv : SiloInv s) : SiloInv (Silo.dropped s) := by
  refine siloInv_of_unchanged hinv rfl rfl (fillField_of_bits fun k hk => ?_)
  have hne : k ≠ s.cfg.ssrStorageIntBit.val := fun h => Silo.storageBit_outside_fill hvalid (h ▸ hk)
  rw [Silo.dropped_ssr, Silo.setBit_bit]
  simp [hne]

theorem enqueue_siloInv (char line : Word) (pe fe ovr : Bool) {s : State} (hvalid : s.cfg.valid = true) (hinv : SiloInv s) :
    SiloInv (enqueue char line pe fe ovr s) := by
  obtain ⟨-, -, -, -, -, hbit⟩ := siloEntry_fields char line pe fe ovr
  obtain ⟨hroom, b, h⟩ | ⟨-, b, h⟩ := enqueue_cases char line pe fe ovr s <;> rw [h]
  · exact siloInv_answered (stored_siloInv hbit hroom hinv) ..
  · exact siloInv_answered (dropped_siloInv hvalid hinv) ..

theorem dequeue_siloInv {s : State} (hdeq : s.cfg.serRegmap.deq ≠ s.cfg.serRegmap.ssr) (hinv : SiloInv s) :
    SiloInv (dequeue s) := by
  obtain hempty | hentry := Nat.eq_zero_or_pos s.count
  · rw [Silo.dequeue_of_empty hempty]
    refine siloInv_of_unchanged hinv rfl rfl ?_
    rw [fillField, Silo.handOver_drawn_ssr _ _ hdeq, fillField]
  · obtain ⟨hle, -, hvalid⟩ := hinv
    rw [Silo.dequeue_of_entry hentry]
    refine ⟨(Nat.sub_le ..).trans hle, Silo.fillField_of_ssr (Silo.handOver_takeOldest_ssr _ hdeq), fun w hw => ?_⟩
    exact hvalid w (queue_takeOldest hentry hle ▸ List.mem_cons_of_mem _ hw)

theorem serDati_siloInv (i : Fin 8) {s : State} (hdeq : s.cfg.serRegmap.deq ≠ s.cfg.serRegmap.ssr) (hinv : SiloInv s) :
    SiloInv (serDati i s) := by
  obtain ⟨-, h⟩ | ⟨-, h⟩ := serDati_cases i s <;> rw [h]
  · exact dequeue_siloInv hdeq hinv
  · exact hinv

/-- A write of SSR puts the fill field back (R191). -/
theorem serDato_siloInv (i : Fin 8) (acc : Access) (data : Word) {s : State} (hinv : SiloInv s) :
    SiloInv (serDato i acc data s) := by
  refine siloInv_of_unchanged hinv rfl rfl ?_
  by_cases hi : i = s.cfg.serRegmap.ssr
  · obtain ⟨-, hfield, -⟩ := hinv
    subst hi
    exact (Silo.fillField_of_ssr (Silo.serDato_ssr ..)).trans hfield.symm
  · exact fillField_of_bits fun k _ => congrArg (·.getLsbD k) (Silo.serDato_latch_other acc data s (Ne.symm hi))

/-- SSR and the count are both 0 after a reset (R43, R240). -/
theorem siloInv_of_zero {s : State} (hcount : s.count = 0) (hlatches : s.serRL = Vector.replicate 8 0) : SiloInv s := by
  refine ⟨by omega, ?_, by simp [queue_of_count_zero hcount]⟩
  simp [fillField, State.ssr, hlatches, hcount]

theorem exec_keeps_siloInv {i : Instr} {s t : State} (hvalid : s.cfg.valid = true) (hinv : SiloInv s) (h : exec i s = .next t) :
    SiloInv t := by
  obtain ⟨-, hdeq, -⟩ := Silo.serialNamesDistinct_of_valid hvalid
  cases ran_of_exec h with
  | eaeRead r => exact siloInv_of_eaeFrame (eaeDati_eaeFrame r s) hinv
  | eaeWrite r acc data => exact siloInv_of_eaeFrame (eaeDato_eaeFrame r acc data s) hinv
  | serRead j => exact serDati_siloInv j.toFin hdeq hinv
  | serWrite j acc data => exact serDato_siloInv j.toFin acc data hinv
  | enq char line pe fe ovr => exact enqueue_siloInv char line pe fe ovr hvalid hinv
  | deq => exact dequeue_siloInv hdeq hinv
  | init | dclo => exact siloInv_of_zero rfl rfl
  | aclo | initOff => exact hinv

/-! ## The interrupt part (60_exceptions.md R215, R217) -/

theorem irqInv_of_noRequest {s t : State} (hinv : IrqInv s) (hcfg : t.cfg = s.cfg) (h : NoRequest s t) : IrqInv t := by
  obtain ⟨hlog, hpending⟩ := h
  simpa only [IrqInv, requestOf, hcfg, hlog, hpending] using hinv

/-- A request carries the controller's vector, level and slot, and enters the pending set once (44_silo.md R192). -/
theorem requestIrq_irqInv (kind : IrqKind) {s : State} (hinv : IrqInv s) : IrqInv (requestIrq kind s) := by
  obtain ⟨hlog, hpending, hnodup⟩ := hinv
  refine ⟨fun q hq => ?_, fun p hp => ?_, requestIrq_pending_nodup kind hnodup⟩
  · obtain hq | rfl := List.mem_append.mp hq |>.imp_right List.mem_singleton.mp
    · exact hlog q hq
    · rfl
  · obtain rfl | hp := (mem_requestIrq_pending kind s p).mp hp
    · rfl
    · exact hpending p hp

theorem enqueue_irqInv (char line : Word) (pe fe ovr : Bool) {s : State} (hinv : IrqInv s) :
    IrqInv (enqueue char line pe fe ovr s) := by
  obtain ⟨-, b, h⟩ | ⟨-, b, h⟩ := enqueue_cases char line pe fe ovr s <;> rw [h] <;> cases b
  · exact hinv
  · exact requestIrq_irqInv .alarm (s := Silo.stored _ s) hinv
  · exact hinv
  · exact requestIrq_irqInv .storage (s := Silo.dropped s) hinv

/-- Any operation but an enqueue requests nothing (R217). -/
theorem exec_keeps_irqInv {i : Instr} {s t : State} (hinv : IrqInv s) (h : exec i s = .next t) : IrqInv t := by
  obtain hquiet | ⟨henq, -⟩ := onlyAnEnqueueRequestsAndOnlyOnce i s t h
  · exact irqInv_of_noRequest hinv (exec_keeps_cfg_inputs h).1 hquiet
  · cases ran_of_exec h with
    | enq char line pe fe ovr => exact enqueue_irqInv char line pe fe ovr hinv
    | eaeRead r => rw [isEnqueue_eaeDati] at henq; cases henq
    | eaeWrite r acc data => rw [isEnqueue_eaeDato] at henq; cases henq
    | serRead j => rw [isEnqueue_serDati] at henq; cases henq
    | serWrite j acc data => rw [isEnqueue_serDato] at henq; cases henq
    | deq | init | dclo | aclo | initOff => cases henq

/-- The adapter's removal of an entry leaves the rest of the pending set (R215). -/
theorem irqInv_erase {s : State} (hinv : IrqInv s) (p : Nat × Nat) : IrqInv { s with pending := s.pending.erase p } := by
  obtain ⟨hlog, hpending, hnodup⟩ := hinv
  exact ⟨hlog, fun q hq => hpending q (List.mem_of_mem_erase hq), hnodup.erase p⟩

/-! ## The invariant -/

theorem exec_keeps_goodState {i : Instr} {s t : State} (hgood : GoodState s) (h : exec i s = .next t) : GoodState t := by
  obtain ⟨hvalid, heae, hsilo, hirq⟩ := hgood
  exact ⟨(exec_keeps_cfg_inputs h).1 ▸ hvalid, exec_keeps_eaeInv heae h, exec_keeps_siloInv hvalid hsilo h,
    exec_keeps_irqInv hirq h⟩

/-- Settles O54: an operation keeps each part; a removal touches the pending set only, and anything else nothing but the inputs. -/
theorem everyStepKeepsTheInvariant : Obligations.EveryStepKeepsTheInvariant := by
  intro s t hgood h
  obtain ⟨-, rfl⟩ | ⟨inp, rest, -, ⟨level, slot, -, rfl⟩ | ⟨_, _, -, -, rfl⟩ | ⟨i, hexec⟩⟩ := step_next_cases h
  · exact hgood
  · obtain ⟨hvalid, heae, hsilo, hirq⟩ := hgood
    exact ⟨hvalid, heae, hsilo, irqInv_erase (s := { s with inputs := rest }) hirq (level, slot)⟩
  · exact hgood
  · exact exec_keeps_goodState (s := { s with inputs := rest }) hgood hexec

/-- A run starts good when its configuration is valid (R43, R245; log 40). -/
theorem powerOn_goodState {cfg : Config} (silo : Vector Word 64) (car bcr : Vector Word 16) (hvalid : cfg.valid = true) :
    GoodState (State.powerOn cfg silo car bcr) :=
  ⟨hvalid, ⟨rfl, rfl, rfl, rfl, rfl, rfl, rfl, rfl⟩, siloInv_of_zero rfl rfl, by simp [State.powerOn],
    by simp [State.powerOn], List.nodup_nil⟩

/-- Settles O53: the initial state by its parts; the default configuration is valid by evaluation. -/
theorem initialStatesAreGood : Obligations.InitialStatesAreGood :=
  ⟨fun _ silo car bcr => powerOn_goodState silo car bcr, powerOn_goodState _ _ _ (by decide)⟩

end Sys2Proof.Proofs.Invariant

/-! PROOFS. The status an operation publishes and the reads that return it (10_state.md R29, R30; 41_eae_mul_div.md R120 to R124;
43_eae_register_access.md R164 to R172). -/

namespace Sys2Proof.Proofs.Status

open Sys2Proof.Machine Sys2Proof.Safety Sys2Proof.Laws Sys2Proof.Proofs.Frames

/-! ## The SCSR word (R29, R30) -/

/-- A bit of the SR byte is the union of the flags that stand there (R29). -/
theorem srByte_bit (l : SrLayout) (sr : Sr) (k : Fin 8) :
    (srByte l sr).getLsbD k.val =
      ((sr.n && decide (k = l.n)) || (sr.nxv && decide (k = l.nxv)) || (sr.c && decide (k = l.c))
        || (sr.mqz && decide (k = l.mqz)) || (sr.acz && decide (k = l.acz)) || (sr.acm1 && decide (k = l.acm1))
        || (sr.sxt && decide (k = l.sxt)) || (sr.z && decide (k = l.z))) := by
  simp only [srByte, BitVec.getLsbD_or, srBit_bit]

/-- Settles O18: SC is the low byte; at a flag's position a layout without repetitions has no other flag. -/
theorem scsrWordHoldsEachFlagAtItsPosition : Obligations.ScsrWordHoldsEachFlagAtItsPosition := by
  intro l sr sc hlayout
  simp only [Config.layoutValid, decide_eq_true_eq, List.nodup_cons, List.mem_cons, List.not_mem_nil, or_false, not_or] at hlayout
  refine ⟨?_, ?_, ?_, ?_⟩
  · apply BitVec.eq_of_getLsbD_eq
    intro k hk
    rw [BitVec.getLsbD_extractLsb', Nat.zero_add, scsrWord_low l sr sc k (by omega)]
    simp [hk]
  · rw [scsrWord_low l sr sc 6 (by decide)]; simp
  · rw [scsrWord_low l sr sc 7 (by decide)]; simp
  · simp only [scsrWord_high, srByte_bit]
    simp_all [eq_comm]

/-! ## After a write that runs an operation (R120, R122) -/

/-- Every EAE write but a byte write of SCSR leaves a committed state. -/
theorem exec_eaeDato_commits {s : State} (hinit : s.initAsserted = false) {r : EaeReg} {acc : Access} (hop : r ≠ .scsr ∨ acc = .word)
    (data : Word) :
    ∃ ac mq sc sr, exec (eaeDatoInstr r acc data) s = .next (RegisterAccess.afterLoad s r acc data ac mq sc sr) := by
  rw [exec_eaeDato, unlessInit_of_not_init _ hinit]
  obtain ⟨-, ac, mq, sc, sr, h⟩ | ⟨⟨rfl, hbyte⟩, -⟩ := eaeDato_cases r acc data s
  · exact ⟨ac, mq, sc, sr, by rw [h]⟩
  · exact absurd rfl (hop.resolve_right hbyte)

/-- D has the value of MQ exactly when AC is the sign of MQ in every bit. -/
theorem joinD_toInt_eq_iff (ac mq : Word) : (joinD ac mq).toInt = mq.toInt ↔ ac = RegisterAccess.signFill mq := by
  have hfill : (joinD (RegisterAccess.signFill mq) mq).toInt = mq.toInt := by
    rw [RegisterAccess.joinD_signFill, BitVec.toInt_signExtend_of_le (by decide)]
  refine ⟨fun h => ?_, fun h => h ▸ hfill⟩
  have hD : joinD ac mq = joinD (RegisterAccess.signFill mq) mq := BitVec.eq_of_toInt_eq (h.trans hfill.symm)
  simpa using congrArg hiWord hD

/-- SXT is that condition (R121). -/
theorem setSr_sxt_iff (ac mq : Word) (sr : Sr) : (setSr ac mq sr).sxt = true ↔ ac = RegisterAccess.signFill mq := by
  rw [setSr_sxt, RegisterAccess.signFill]
  cases signWord mq <;> simp

/-- Settles O17: a committed SXT says that AC is the sign of MQ, and so does the value of D. -/
theorem sxtHoldsExactlyWhenDFitsInMq : Obligations.SxtHoldsExactlyWhenDFitsInMq := by
  intro s r acc data hinit hop
  obtain ⟨ac, mq, sc, sr, h⟩ := exec_eaeDato_commits hinit hop data
  exact ⟨_, h, (setSr_sxt_iff ac mq sr).trans (joinD_toInt_eq_iff ac mq).symm⟩

/-- Reading SCSR after a commit finds SR recomputed and the status word published (R120, R167). -/
theorem readScsr_afterLoad (s : State) (r : EaeReg) (acc : Access) (data ac mq : Word) (sc : BitVec 6) (sr : Sr) :
    readScsr (RegisterAccess.afterLoad s r acc data ac mq sc sr) = RegisterAccess.afterLoad s r acc data ac mq sc sr := by
  simp [readScsr, RegisterAccess.afterLoad, State.withReply, State.deviceWrite, commit_eq, EaeLatches.set]

/-- Settles O55: a commit publishes what the read routines of SCSR and NOR would publish, so they change nothing. -/
theorem statusIsPublishedByEveryOperation : Obligations.StatusIsPublishedByEveryOperation := by
  intro s r acc data hinit hop
  obtain ⟨ac, mq, sc, sr, h⟩ := exec_eaeDato_commits hinit hop data
  have hinit' : (RegisterAccess.afterLoad s r acc data ac mq sc sr).initAsserted = false := hinit
  refine ⟨_, h, ?_, RegisterAccess.exec_eaeDati_admitted .nor hinit'⟩
  rw [RegisterAccess.exec_datiScsr hinit', readScsr_afterLoad]
  rfl

/-! ## MUL, DIV, NOR, LSH and ASH compute from AC, MQ and the operand (R25, R27, R124) -/

theorem shiftEnd_n (res : ShiftResult) : (shiftEnd res).n = (shiftEnd res).ac.getLsbD 15 := by
  simp [shiftEnd, signWord]

/-- The five operations publish a result that is a function of AC, MQ, the operand and the configuration, and whose N is the sign of its
result word. -/
theorem writeOp_publishes {r : EaeReg} (hr : r ∈ [EaeReg.mul, .div, .nor, .lsh, .ash]) :
    ∃ result : Config → Word → Word → Word → EaeResult,
      (∀ acc v s, writeOp r acc v s = publish (result s.cfg s.ac s.mq v) s)
        ∧ ∀ c ac mq v, (result c ac mq v).n =
          if r = .div then (result c ac mq v).mq.getLsbD 15 else (result c ac mq v).ac.getLsbD 15 := by
  cases r with
  | mul => exact ⟨fun _ _ mq v => mulResult mq v, fun _ _ _ => rfl, fun _ _ _ _ => rfl⟩
  | div => exact ⟨fun _ => divResult, fun _ _ _ => rfl, fun _ => MulDiv.divResult_n⟩
  | nor => exact ⟨fun c ac mq _ => norResult c.norSpecialAc ac mq, fun _ _ _ => rfl, fun _ _ _ _ => rfl⟩
  | lsh => exact ⟨fun _ ac mq v => shiftEnd (lshShift (joinD ac mq) (shiftCode v)), fun _ _ _ => rfl, fun _ _ _ _ => shiftEnd_n _⟩
  | ash => exact ⟨fun _ ac mq v => shiftEnd (ashShift (joinD ac mq) (shiftCode v)), fun _ _ _ => rfl, fun _ _ _ _ => shiftEnd_n _⟩
  | ac | mq | scsr => simp at hr

/-- Settles O19: publishing such a result overwrites the flags it starts from and SC. -/
theorem operationsSetNFromTheResultAndIgnoreOldFlags : Obligations.OperationsSetNFromTheResultAndIgnoreOldFlags := by
  intro r acc data s old k hr hinit
  obtain ⟨result, hpublish, hsign⟩ := writeOp_publishes hr
  rw [MulDiv.exec_eaeDato_admitted r acc data hinit, hpublish]
  refine ⟨⟨_, rfl, ?_⟩, ?_⟩
  · simpa using hsign s.cfg s.ac s.mq (operandAt s r acc data)
  · rw [MulDiv.exec_eaeDato_admitted (s := { s with sr := old, sc := k }) r acc data hinit, hpublish]
    exact congrArg (fun u : State => Host.Outcome.next (u.withReply none)) (publish_forgets _ (s.busWrite r data acc) old k)

/-! ## Reads (R164 to R172) -/

/-- What a read returns in a good state: a function of AC, MQ, SC, SR and the layout (R172). -/
def readWord (l : SrLayout) (ac mq : Word) (sc : BitVec 6) (sr : Sr) : EaeReg → Word
  | .ac => ac
  | .mq => mq
  | .scsr => scsrWord l (setSr ac mq sr) sc
  | .nor => sc.setWidth 16
  | .div | .mul | .lsh | .ash => 0

theorem eaeDati_reply (r : EaeReg) {s : State} (hinv : EaeInv s) :
    (eaeDati r (readRoutine r) s).reply = some (.word (readWord s.cfg.srLayout s.ac s.mq s.sc s.sr r)) := by
  obtain ⟨hac, hmq, -, hdiv, hmul, hlsh, hash, -⟩ := hinv
  cases r with
  | div => exact congrArg (some ∘ Reply.word) hdiv
  | ac => exact congrArg (some ∘ Reply.word) hac
  | mq => exact congrArg (some ∘ Reply.word) hmq
  | mul => exact congrArg (some ∘ Reply.word) hmul
  | lsh => exact congrArg (some ∘ Reply.word) hlsh
  | ash => exact congrArg (some ∘ Reply.word) hash
  | scsr | nor => rfl

/-- Reading SCSR recomputes SR, which keeps N, NXV and C; the other reads leave it. -/
theorem eaeDati_keepsStoredFlags (r : EaeReg) (s : State) : KeepsStoredFlags s (eaeDati r (readRoutine r) s) := by
  cases r with
  | scsr => exact ⟨setSr_n .., setSr_nxv .., setSr_c ..⟩
  | div | ac | mq | mul | nor | lsh | ash => exact ⟨rfl, rfl, rfl⟩

theorem eaeDati_of_exec {r : EaeReg} {s t : State} (h : exec (eaeDatiInstr r) s = .next t) : eaeDati r (readRoutine r) s = t :=
  (unlessInit_eq_next_iff.mp (exec_eaeDati r s ▸ h)).2

/-- Settles O41: the frame of a read, and its reply as `readWord` of the visible state. -/
theorem eaeReadsAreFunctionsOfTheVisibleState : Obligations.EaeReadsAreFunctionsOfTheVisibleState := by
  refine ⟨fun r s t h => ?_, fun r s s' t t' hinv hinv' hl hac hmq hsc hn hnxv hc h h' => ?_⟩
  · obtain rfl := eaeDati_of_exec h
    have hframe := eaeDati_frame r s
    exact ⟨by rw [hframe], by rw [hframe], by rw [hframe], eaeDati_keepsStoredFlags r s, hframe⟩
  · have hword : readWord s.cfg.srLayout s.ac s.mq s.sc s.sr r = readWord s'.cfg.srLayout s'.ac s'.mq s'.sc s'.sr r := by
      have hsr : setSr s'.ac s'.mq s.sr = setSr s'.ac s'.mq s'.sr := setSr_congr hn hnxv hc
      rw [hl, hac, hmq, hsc]
      cases r <;> simp [readWord, hsr]
    rw [← eaeDati_of_exec h, ← eaeDati_of_exec h', eaeDati_reply r hinv, eaeDati_reply r hinv', hword]

/-! ## LOAD32 (30_encoding.md R79) and the first status read (10_state.md R43) -/

/-- A word write's operand is its data (R104). -/
theorem operandAt_word (s : State) {r : EaeReg} (hr : r ≠ .nor) (data : Word) : operandAt s r .word data = data :=
  (BusInterface.byteOperandsComeFromTheWriteLatch s r data hr).1

/-- A word write to AC, with its data as the operand. -/
theorem exec_datoWAc (hi : Word) {s : State} (h : s.initAsserted = false) :
    exec (.datoWAc hi) s = .next (RegisterAccess.afterLoad s .ac .word hi hi s.mq s.sc s.sr) := by
  have hexec := RegisterAccess.exec_ac .word hi h
  rwa [operandAt_word s (by decide)] at hexec

/-- A word write to MQ, with its data as the operand. -/
theorem exec_datoWMq (lo : Word) {s : State} (h : s.initAsserted = false) :
    exec (.datoWMq lo) s = .next (RegisterAccess.afterLoad s .mq .word lo (RegisterAccess.signFill lo) lo s.sc s.sr) := by
  have hexec := RegisterAccess.exec_mq .word lo h
  rwa [operandAt_word s (by decide)] at hexec

/-- Two operations one after the other. -/
theorem execAll_two {i j : Instr} {s t u : State} (hi : exec i s = .next t) (hj : exec j t = .next u) :
    execAll [i, j] s = .next u := by
  simp [execAll, hi, hj]

/-- Settles O37: the write to AC keeps MQ, the write to MQ overwrites AC. -/
theorem loadingMqBeforeAcLoadsD : Obligations.LoadingMqBeforeAcLoadsD := by
  intro s hi lo hinit
  refine ⟨⟨_, execAll_two (exec_datoWMq lo hinit) (exec_datoWAc hi hinit), rfl, rfl, rfl⟩,
    _, execAll_two (exec_datoWAc hi hinit) (exec_datoWMq lo hinit), rfl, rfl⟩

/-- The flags of AC = MQ = 0 (R121). -/
theorem setSr_zero :
    setSr 0 0 ⟨false, false, false, false, false, false, false, false⟩ = ⟨false, false, false, true, true, false, true, true⟩ := by
  decide

/-- Settles O52: the fields of the power-on state one by one; its first SCSR read recomputes the flags from AC = MQ = 0. -/
theorem powerOnStateAndItsFirstStatusRead : Obligations.PowerOnStateAndItsFirstStatusRead := by
  intro cfg silo car bcr
  have hlatches : ∀ r, (EaeLatches.fill 0).get r = 0 ∧ (EaeLatches.fill 0).get r = 0 := fun r =>
    ⟨latches_fill_get 0 r, latches_fill_get 0 r⟩
  have hserial : ∀ i : Fin 8, (Vector.replicate 8 (0 : Word))[i] = 0 := fun _ => Vector.getElem_replicate _
  have hlpr : ∀ i : Fin 16, (Vector.replicate 16 (0 : Word))[i] = 0 := fun _ => Vector.getElem_replicate _
  refine ⟨⟨rfl, rfl, rfl, rfl, rfl, rfl, rfl, hlatches, fun i => ⟨hserial i, hserial i⟩, hserial _, hserial _, hlpr, rfl, rfl, rfl,
    rfl⟩, _, RegisterAccess.exec_datiScsr rfl, ?_⟩
  exact congrArg (fun sr => some (Reply.word (scsrWord cfg.srLayout sr 0))) setSr_zero

end Sys2Proof.Proofs.Status

/-! PROOFS. How a bus cycle reaches the block (20_memory.md R51 to R57), and the configuration moves that keep windows apart (R57, R68,
60_exceptions.md R211, R224). -/

namespace Sys2Proof.Proofs.Bus

open Sys2Proof.Machine Sys2Proof.Safety Sys2Proof.Laws

/-! ## A cycle at an address, by what the address selects -/

/-- Settles O6: the first input is taken off and delivered; what is delivered runs the operation its descriptor decodes to. -/
theorem stepRunsTheDecodedOperation : Obligations.StepRunsTheDecodedOperation := by
  refine ⟨fun s d o rest i hin hd => ?_, fun s a cy rest d o i hin hroute hd => ?_, fun s hin => step_of_no_input hin⟩
  · rw [step_of_input hin, deliver_event, runEvent_ok hd]
  · rw [step_of_input hin, deliver_cycle]
    simp only [hroute]
    exact runEvent_ok hd _

/-- A cycle that selects no register is not seen (R51). -/
theorem step_of_unaddressed {s : State} {rest : List Input} {a : Nat} {cy : BusCycle} (hin : s.inputs = .cycle a cy :: rest)
    (h : addressed s.cfg a = none) : step s = .next { s with inputs := rest } := by
  have hroute : routeCycle s.cfg a cy = .unseen := by simp [routeCycle, h]
  rw [step_of_input hin, deliver_cycle]
  simp only [hroute]

/-- A cycle that is delivered runs the operation its descriptor decodes to (R71). -/
theorem step_of_delivered {s : State} (rest : List Input) {a : Nat} {cy : BusCycle} {d : Desc} {o : EventOperands} {i : Instr}
    (hroute : routeCycle s.cfg a cy = .delivered d o) (hd : decode d o = .ok i) :
    step { s with inputs := .cycle a cy :: rest } = exec i { s with inputs := rest } :=
  stepRunsTheDecodedOperation.2.1 { s with inputs := .cycle a cy :: rest } a cy rest d o i rfl hroute hd

section
variable {s : State} {a : Nat} {blk : Bool} {i : BitVec 3} (rest : List Input) (data : Word)

/-- A word read at an even address (R51). -/
theorem step_dati (h : addressed s.cfg a = some (blk, i)) (heven : a % 2 = 0) :
    step { s with inputs := .cycle a .dati :: rest } =
      exec (if blk then serDatiInstr i else eaeDatiInstr (.ofIdx i)) { s with inputs := rest } :=
  step_of_delivered rest (by simp [routeCycle, h, heven]) (Encoding.decode_cycleDesc_dati blk i .zero)

/-- A byte read at any address of the register (R54). -/
theorem step_datiByte (h : addressed s.cfg a = some (blk, i)) :
    step { s with inputs := .cycle a .datiByte :: rest } =
      exec (if blk then serDatiInstr i else eaeDatiInstr (.ofIdx i)) { s with inputs := rest } :=
  step_of_delivered rest (by simp [routeCycle, h]) (Encoding.decode_cycleDesc_dati blk i .zero)

/-- A word write at an even address (R51). -/
theorem step_datoWord (h : addressed s.cfg a = some (blk, i)) (heven : a % 2 = 0) :
    step { s with inputs := .cycle a (.datoWord data) :: rest } =
      exec (if blk then serDatoInstr i .word data else eaeDatoInstr (.ofIdx i) .word data) { s with inputs := rest } :=
  step_of_delivered rest (by simp [routeCycle, h, heven]) (Encoding.decode_cycleDesc_dato blk .word i (.ofData data))

/-- A byte write: the low byte at the even address, the high byte at the odd one (R52). -/
theorem step_datoByte (h : addressed s.cfg a = some (blk, i)) :
    step { s with inputs := .cycle a (.datoByte data) :: rest } =
      exec (if blk then serDatoInstr i (if a % 2 = 0 then .bytel else .byteh) data
        else eaeDatoInstr (.ofIdx i) (if a % 2 = 0 then .bytel else .byteh) data) { s with inputs := rest } := by
  have hlane : (if a % 2 = 1 then Access.byteh else .bytel) = if a % 2 = 0 then .bytel else .byteh := by
    rcases Nat.mod_two_eq_zero_or_one a with h | h <;> simp [h]
  refine step_of_delivered rest ?_ (Encoding.decode_cycleDesc_dato blk _ i (.ofData data))
  simp [routeCycle, h, hlane]

/-- A word cycle at an odd address (R55). -/
theorem step_odd (h : addressed s.cfg a = some (blk, i)) (hodd : a % 2 = 1) {cy : BusCycle}
    (hword : cy = .dati ∨ cy = .datoWord data) :
    step { s with inputs := .cycle a cy :: rest } = .refused .oddWordCycle := by
  have hroute : routeCycle s.cfg a cy = .odd := by
    obtain rfl | rfl := hword <;> simp [routeCycle, h, hodd]
  rw [step_of_input (inp := .cycle a cy) rfl, deliver_cycle]
  simp only [hroute]

end

/-! ## What an address selects (R51, R57) -/

/-- An address inside an enabled window that the bus can carry selects a register. -/
theorem addressed_of_holds {c : Config} {a : Nat} (hbus : c.onBus a = true)
    (h : (c.eaeEnabled = true ∧ c.eaeWindow.holds a = true) ∨ (c.serEnabled = true ∧ c.serWindow.holds a = true)) :
    ∃ w, addressed c a = some w := by
  rw [← Option.isSome_iff_exists, Option.isSome_iff_ne_none, Ne, addressed_eq_none]
  tauto

/-- Settles O8: the address selects a register, and the decode refuses the odd word cycle before anything is admitted. -/
theorem oddWordCyclesAreRefused : Obligations.OddWordCyclesAreRefused := by
  intro s rest a data hodd hbus hwindow
  obtain ⟨⟨blk, i⟩, h⟩ := addressed_of_holds (onBus_iff.mpr hbus)
    (hwindow.imp (.imp_right holds_iff.mpr) (.imp_right holds_iff.mpr))
  exact ⟨step_odd rest data h hodd (.inl rfl), step_odd rest data h hodd (.inr rfl)⟩

/-- Settles O9: outside the enabled windows no register is addressed. -/
theorem cyclesOutsideTheWindowsChangeNothing : Obligations.CyclesOutsideTheWindowsChangeNothing := by
  intro s rest a cy hin heae hser
  refine step_of_unaddressed hin (addressed_eq_none.mpr ⟨fun ⟨hon, _, hholds⟩ => ?_, fun ⟨hon, _, hholds⟩ => ?_⟩)
  · exact heae ⟨hon, holds_iff.mp hholds⟩
  · exact hser ⟨hon, holds_iff.mp hholds⟩

/-! ## Valid configurations (R20, R41, R50, R55, R57, R224) -/

/-- What a valid configuration says of the windows. -/
structure WindowsValid (c : Config) : Prop where
  eaeRegs : c.eaeRegs ≤ 8
  serRegs : c.serRegs ≤ 8
  eaePlaced : c.placed c.eaeWindow = true
  serPlaced : c.placed c.serWindow = true
  apart : c.eaeEnabled = true → c.serEnabled = true → c.eaeWindow.meets c.serWindow = false
  eaeOffStubs : c.eaeEnabled = true → ∀ w ∈ Config.stubWindows, c.eaeWindow.meets w = false
  serOffStubs : c.serEnabled = true → ∀ w ∈ Config.stubWindows, c.serWindow.meets w = false

theorem windowsValid_of_valid {c : Config} (h : c.valid = true) : WindowsValid c := by
  simp only [Config.valid, Bool.and_eq_true, decide_eq_true_eq, Bool.not_eq_true', Bool.and_eq_false_imp, List.any_eq_false] at h
  obtain ⟨⟨⟨⟨⟨⟨⟨-, heaeRegs⟩, hserRegs⟩, heaePlaced⟩, hserPlaced⟩, hapart⟩, heaeStubs⟩, hserStubs⟩ := h
  exact ⟨heaeRegs, hserRegs, heaePlaced, hserPlaced, fun he hs => hapart ⟨he, hs⟩,
    fun he w hw => Bool.eq_false_iff.mpr (heaeStubs he w hw), fun hs w hw => Bool.eq_false_iff.mpr (hserStubs hs w hw)⟩

/-- The address of register i of a placed window, in either byte (R51). -/
theorem windowIndex_register {w : Window} {a : Nat} {i : BitVec 3} (heven : w.base % 2 = 0) (hi : 2 * i.toNat < w.bytes)
    (h : a / 2 = w.base / 2 + i.toNat) (hbytes : w.bytes % 2 = 0) : windowIndex w a = some i := by
  refine windowIndex_eq_some.mpr ⟨holds_iff.mpr (by omega), ?_⟩
  rw [show (a - w.base) / 2 = i.toNat by omega]
  simp

/-- An index is given only to an address of the window. -/
theorem holds_of_windowIndex {w : Window} {a : Nat} {i : BitVec 3} (h : windowIndex w a = some i) : w.holds a = true :=
  (windowIndex_eq_some.mp h).1

/-- A placed window lies in the address space (R50). -/
theorem onBus_of_placed {c : Config} {w : Window} {a : Nat} (hplaced : c.placed w = true) (hholds : w.holds a = true) :
    c.onBus a = true := by
  obtain ⟨-, hend⟩ := placed_iff.mp hplaced
  obtain ⟨-, hlt⟩ := holds_iff.mp hholds
  exact onBus_iff.mpr (by omega)

/-- The EAE's window comes first. -/
theorem addressed_eae {c : Config} {a : Nat} {i : BitVec 3} (hon : c.eaeEnabled = true) (hbus : c.onBus a = true)
    (h : windowIndex c.eaeWindow a = some i) : addressed c a = some (false, i) := by
  simp [addressed, hon, hbus, h]

/-- The serial window is reached where the EAE's is not. -/
theorem addressed_ser {c : Config} {a : Nat} {i : BitVec 3} (hon : c.serEnabled = true) (hbus : c.onBus a = true)
    (h : windowIndex c.serWindow a = some i) (heae : c.eaeEnabled = true → c.eaeWindow.holds a = false) :
    addressed c a = some (true, i) := by
  have hnone : (if c.eaeEnabled && c.onBus a then windowIndex c.eaeWindow a else none) = none := by
    split
    next hcond => exact windowIndex_eq_none.mpr (heae (Bool.and_eq_true_iff.mp hcond).1)
    next => rfl
  rw [addressed, hnone]
  simp [hon, hbus, h]

/-- A register of an enabled EAE is selected by both its addresses. -/
theorem addressed_eae_register {c : Config} (hvalid : WindowsValid c) {a : Nat} {i : BitVec 3} (hon : c.eaeEnabled = true)
    (hi : i.toNat < c.eaeRegs) (h : a / 2 = c.eaeBase / 2 + i.toNat) : addressed c a = some (false, i) := by
  have hindex : windowIndex c.eaeWindow a = some i :=
    windowIndex_register (placed_iff.mp hvalid.eaePlaced).1 (by simp; omega) h (by simp)
  exact addressed_eae hon (onBus_of_placed hvalid.eaePlaced (holds_of_windowIndex hindex)) hindex

/-- A register of an enabled serial controller is selected by both its addresses, the EAE's window being apart. -/
theorem addressed_ser_register {c : Config} (hvalid : WindowsValid c) {a : Nat} {i : BitVec 3} (hon : c.serEnabled = true)
    (hi : i.toNat < c.serRegs) (h : a / 2 = c.serBase / 2 + i.toNat) : addressed c a = some (true, i) := by
  have hindex : windowIndex c.serWindow a = some i :=
    windowIndex_register (placed_iff.mp hvalid.serPlaced).1 (by simp; omega) h (by simp)
  have hholds := holds_of_windowIndex hindex
  refine addressed_ser hon (onBus_of_placed hvalid.serPlaced hholds) hindex fun heae => ?_
  by_contra hboth
  simp [not_holds_of_not_meets (hvalid.apart heae hon) (Bool.eq_true_of_not_eq_false hboth)] at hholds

/-- Settles O7: the address selects the register, and the four cycles decode to its read and its writes. -/
theorem cyclesInAWindowReachTheirRegister : Obligations.CyclesInAWindowReachTheirRegister := by
  intro s rest a i data hvalid
  have hw := windowsValid_of_valid hvalid
  refine ⟨fun hon hi ha => ?_, fun hon hi ha => ?_⟩
  · have h := addressed_eae_register hw hon hi ha
    exact ⟨fun heven => ⟨step_dati rest h heven, step_datoWord rest data h heven⟩, step_datiByte rest h, step_datoByte rest data h⟩
  · have h := addressed_ser_register hw hon hi ha
    exact ⟨fun heven => ⟨step_dati rest h heven, step_datoWord rest data h heven⟩, step_datiByte rest h, step_datoByte rest data h⟩

/-- Settles O57: an enabled window of a valid configuration meets no stub window, so it does not hold a stub address. -/
theorem stubAddressesSelectNoRegister : Obligations.StubAddressesSelectNoRegister := by
  intro s rest a cy hvalid hin ha
  have hw := windowsValid_of_valid hvalid
  obtain ⟨stub, hmem, hstub⟩ : ∃ stub ∈ Config.stubWindows, stub.holds a = true := by
    obtain ha | ha := ha
    · exact ⟨⟨0o764040, 2 * 2⟩, by simp [Config.stubWindows], holds_iff.mpr ha⟩
    · exact ⟨⟨0o764100, 2 * 26⟩, by simp [Config.stubWindows], holds_iff.mpr ha⟩
  have apart : ∀ w : Window, w.meets stub = false → w.holds a ≠ true := fun w hmeets hholds => by
    simp [not_holds_of_not_meets hmeets hholds] at hstub
  refine step_of_unaddressed hin (addressed_eq_none.mpr ⟨fun ⟨hon, _, hholds⟩ => ?_, fun ⟨hon, _, hholds⟩ => ?_⟩)
  · exact apart _ (hw.eaeOffStubs hon stub hmem) hholds
  · exact apart _ (hw.serOffStubs hon stub hmem) hholds

/-! ## Configuration moves (R57, R68) -/

/-- With a device disabled only the other one is addressed (R57). -/
theorem addressed_of_disabled (c : Config) (d : Device) {a : Nat} {w : Bool × BitVec 3}
    (h : addressed (withEnabled c d false) a = some w) : w.1 = decide (d = .eae) := by
  cases d with
  | eae =>
    simp only [addressed, withEnabled, Bool.false_and, Bool.false_eq_true, if_false, Option.map_eq_some_iff] at h
    obtain ⟨i, -, rfl⟩ := h
    rfl
  | ser =>
    simp only [addressed, withEnabled, Bool.false_and, Bool.false_eq_true, if_false, Option.map_none] at h
    split at h <;> cases h
    rfl

/-- Settles O56: the two moves branch on `conflicts`; a device left disabled is not addressed. -/
theorem overlappingDevicesStayDisabled : Obligations.OverlappingDevicesStayDisabled := by
  intro c others d b
  refine ⟨fun hconf => ?_, fun hconf => if_pos hconf, fun hfree => ?_⟩
  · have hinstall : installDevice c others d = (withEnabled c d false, some .addressConflict) := if_pos hconf
    rw [hinstall]
    exact ⟨rfl, fun a w => addressed_of_disabled c d⟩
  · rw [changeBase, hfree, if_neg Bool.false_ne_true]
    cases d <;> rfl

end Sys2Proof.Proofs.Bus

/-! PROOFS. Values of D: the division law (41_eae_mul_div.md R131, R135), and what shifting left keeps of a value (42_eae_shift_normalize.md
R141). -/

namespace Sys2Proof.Proofs.Values

open Sys2Proof.Machine Sys2Proof.Safety Sys2Proof.Laws

/-! ## Signs as bits (00_scope.md R12) -/

/-- Bit 15 of a word says that its value is negative. -/
theorem word_sign_iff (x : Word) : x.getLsbD 15 = true ↔ x.toInt < 0 := by
  rw [← BitVec.msb_eq_getLsbD_last x, BitVec.msb_eq_toInt, decide_eq_true_iff]

/-- Bit 31 of D says that its value is negative. -/
theorem long_sign_iff (x : Long) : x.getLsbD 31 = true ↔ x.toInt < 0 := by
  rw [← BitVec.msb_eq_getLsbD_last x, BitVec.msb_eq_toInt, decide_eq_true_iff]

/-- Values of D lie in 32 signed bits. -/
theorem long_toInt_bounds (x : Long) : -2147483648 ≤ x.toInt ∧ x.toInt ≤ 2147483647 := by
  have hlo := BitVec.le_toInt x
  have hhi := BitVec.toInt_lt (x := x)
  omega

theorem word_toInt_bounds (x : Word) : -32768 ≤ x.toInt ∧ x.toInt ≤ 32767 := by
  have hlo := BitVec.le_toInt x
  have hhi := BitVec.toInt_lt (x := x)
  omega

/-! ## The division law (R135) -/

/-- A remainder is 0 or has the sign of the dividend. -/
theorem tmod_sign (t d : Int) : t.tmod d = 0 ∨ (t.tmod d < 0 ↔ t < 0) := by
  rcases lt_or_ge t 0 with ht | ht
  · have h := Int.tmod_nonneg d (show 0 ≤ -t by omega)
    rw [Int.neg_tmod] at h
    omega
  · have h := Int.tmod_nonneg d ht
    omega

/-- A remainder is smaller than the divisor. -/
theorem natAbs_tmod_lt (t : Int) {d : Int} (hd : d ≠ 0) : (t.tmod d).natAbs < d.natAbs := by
  rw [Int.natAbs_tmod]
  exact Nat.mod_lt _ (Int.natAbs_pos.mpr hd)

/-- So the remainder by a word fits in a word. -/
theorem toInt_remainder (t : Int) {v : Word} (hv : v.toInt ≠ 0) : (BitVec.ofInt 16 (t.tmod v.toInt)).toInt = t.tmod v.toInt := by
  have hlt := natAbs_tmod_lt t hv
  have hbounds := word_toInt_bounds v
  apply BitVec.toInt_ofInt_eq_self <;> omega

/-- Settles O22: without overflow the normal path was taken and quotient and remainder fit in their words. -/
theorem divisionWithoutOverflowIsExact : Obligations.DivisionWithoutOverflowIsExact := by
  intro s acc data hinit
  obtain ⟨u, hexec, -, -, hlarge, hsmall⟩ := MulDiv.divTakesTheFailOrTheNormalPath.2 s acc data hinit
  generalize operandAt s .div acc data = v at *
  rcases Nat.lt_or_ge (dOf s).toInt.natAbs (2 ^ 16 * v.toInt.natAbs) with h | h
  · obtain ⟨hmq, hac, hsc, -, hover⟩ := hsmall h
    refine ⟨u, hexec, .inl hsc, fun hfit => ?_⟩
    have hv : v.toInt ≠ 0 := by omega
    have hmqInt : u.mq.toInt = (dOf s).toInt.tdiv v.toInt := by
      have hq : ¬ ((dOf s).toInt.tdiv v.toInt < -32768 ∨ 32767 < (dOf s).toInt.tdiv v.toInt) := by simp [← hover, hfit]
      rw [hmq]
      apply BitVec.toInt_ofInt_eq_self <;> omega
    have hacInt : u.ac.toInt = (dOf s).toInt.tmod v.toInt := hac ▸ toInt_remainder _ hv
    refine ⟨?_, hacInt ▸ natAbs_tmod_lt _ hv, ?_⟩
    · rw [hmqInt, hacInt]
      exact (Int.tdiv_mul_add_tmod ..).symm
    · rcases tmod_sign (dOf s).toInt v.toInt with hzero | hsign
      · exact .inl (by rw [hac, hzero]; rfl)
      · exact .inr (Bool.eq_iff_iff.mpr (by rw [word_sign_iff, long_sign_iff, hacInt, hsign]))
  · obtain ⟨-, -, hsc, -, hover⟩ := hlarge h
    exact ⟨u, hexec, .inr hsc, fun hfit => by simp [hfit] at hover⟩

/-- Settles O23: |t| is never below 2^16 · 0, so the fail path's clauses hold, here with the operand 0. -/
theorem divisionByZeroReportsOverflow : Obligations.DivisionByZeroReportsOverflow := by
  intro s acc data hinit hzero
  obtain ⟨u, hexec, -, -, hlarge, -⟩ := MulDiv.divTakesTheFailOrTheNormalPath.2 s acc data hinit
  rw [hzero] at hlarge
  obtain ⟨hac, hmq, hsc, -, hover⟩ := hlarge (by simp)
  refine ⟨u, hexec, hsc, ?_, ?_, ?_⟩
  · revert hover
    rw [overflow]
    cases u.sr.n <;> cases u.sr.nxv <;> simp
  · simpa using hac
  · rw [hmq, ← MulDiv.shiftLeft_one_or_bit]
    cases s.ac.getLsbD 15 <;> simp

/-! ## Shifting left (R141) -/

/-- Bits 31 and 30 differ exactly when twice the value does not fit in 32 signed bits. -/
theorem topBits_differ_iff (x : Long) : x.getLsbD 31 ≠ x.getLsbD 30 ↔ x.toInt < -1073741824 ∨ 1073741824 ≤ x.toInt := by
  have hx := x.isLt
  simp only [BitVec.getLsbD, Nat.testBit_eq_decide_div_mod_eq, BitVec.toInt_eq_toNat_cond, ne_eq, decide_eq_decide]
  split <;> omega

/-- One place to the left doubles the value when bits 31 and 30 agree. -/
theorem toInt_shiftLeft_one {x : Long} (h : x.getLsbD 31 = x.getLsbD 30) : (x <<< 1).toInt = x.toInt * 2 := by
  have hfits := mt (topBits_differ_iff x).mpr (not_not.mpr h)
  have hx := x.isLt
  simp only [BitVec.toInt_eq_toNat_cond, BitVec.toNat_shiftLeft, Nat.shiftLeft_eq] at *
  split at hfits <;> split <;> omega

/-- n places multiply the value by 2^n when bits 31 and 30 agree before each of them. -/
theorem toInt_shiftLeft_of_topBits {x : Long} {n : Nat} (h : ∀ j, j < n → (x <<< j).getLsbD 31 = (x <<< j).getLsbD 30) :
    (x <<< n).toInt = x.toInt * 2 ^ n := by
  induction n with
  | zero => simp
  | succ n ih =>
    rw [BitVec.shiftLeft_add, toInt_shiftLeft_one (h n (Nat.lt_succ_self n)), ih fun j hj => h j (Nat.lt_succ_of_lt hj),
      Int.pow_succ, Int.mul_assoc]

/-! ## NOR (R140, R141) -/

/-- Before NOR stops, bits 31 and 30 agree. -/
theorem topBits_of_not_norStops {special : Word} {x : Long} (h : ¬ NorStops special x) : x.getLsbD 31 = x.getLsbD 30 :=
  not_not.mp (not_or.mp h).2

theorem hiWord_bit (x : Long) {k : Nat} (hk : k < 16) : (hiWord x).getLsbD k = x.getLsbD (16 + k) := by
  simp [hiWord, hk]

/-- The special stop at 0x6000 is one of bits 31 and 30 differing, so it adds nothing. -/
theorem norStops_6000_iff (x : Long) : NorStops 0x6000 x ↔ x.getLsbD 31 ≠ x.getLsbD 30 := by
  refine ⟨fun h => h.elim (fun ⟨hhi, _⟩ => ?_) id, .inr⟩
  rw [← hiWord_bit x (k := 15) (by decide), ← hiWord_bit x (k := 14) (by decide), hhi]
  decide

/-- The two top bits of D are AC's. -/
theorem dOf_topBits (t : State) : (dOf t).getLsbD 31 = t.ac.getLsbD 15 ∧ (dOf t).getLsbD 30 = t.ac.getLsbD 14 :=
  ⟨joinD_sign .., joinD_bit ..⟩

/-- The exact value after NOR, from its outcome at the first stop (R141). -/
theorem toInt_shiftLeft_before_stop {special : Word} {x : Long} {n k : Nat} (hnk : n ≤ k)
    (hbefore : ∀ j, j < k → ¬ NorStops special (x <<< j)) : (x <<< n).toInt = x.toInt * 2 ^ n :=
  toInt_shiftLeft_of_topBits fun j hj => topBits_of_not_norStops (hbefore j (by omega))

/-- After 31 doublings that lost nothing the value was 0 or -1. -/
theorem zero_or_minus_one {x : Long} (h : (x <<< 31).toInt = x.toInt * 2 ^ 31) : x = 0 ∨ x = 0xFFFFFFFF := by
  have hbounds := long_toInt_bounds (x <<< 31)
  have hx : x.toInt = 0 ∨ x.toInt = -1 := by omega
  exact hx.imp (BitVec.eq_of_toInt_eq (y := 0)) (BitVec.eq_of_toInt_eq (y := 0xFFFFFFFF))

/-- Settles O25: before the first stop no doubling loses a bit; the loop ran to its end only on 0 and on -1. -/
theorem normalizingKeepsTheValue : Obligations.NormalizingKeepsTheValue := by
  intro s acc data hinit
  obtain ⟨t, k, hexec, -, -, hsc, hshift, hbefore, hstop, -⟩ := Normalize.norShiftsToTheFirstStop.2 s acc data hinit
  have hvalue := toInt_shiftLeft_before_stop (Nat.le_refl k) hbefore
  refine ⟨t, hexec, by rw [hshift, hsc, hvalue], fun hspecial => ?_⟩
  obtain hk | hstop := hstop
  · subst hk
    refine .inr ⟨BitVec.eq_of_toNat_eq hsc, ?_⟩
    rw [hshift]
    exact (zero_or_minus_one hvalue).imp (fun h => ⟨h, by rw [h]; rfl⟩) (fun h => ⟨h, by rw [h]; rfl⟩)
  · obtain ⟨h31, h30⟩ := dOf_topBits t
    rw [hspecial, norStops_6000_iff, ← hshift, h31, h30] at hstop
    exact .inl hstop

/-- At -2^30 the alternative test stops (log 21). -/
theorem eq_C0000000_of_toInt {x : Long} (h : x.toInt = -(2 ^ 30)) : x = 0xC0000000 := BitVec.eq_of_toInt_eq h

theorem norStops_C0000000 : NorStops 0xC000 0xC0000000 := .inl ⟨rfl, rfl⟩

/-- The alternative test stops at -2^30 and where the value does not fit in 31 bits. -/
theorem toInt_of_norStops_C000 {x : Long} (h : NorStops 0xC000 x) : x.toInt ≤ -1073741824 ∨ 1073741824 ≤ x.toInt := by
  obtain ⟨hhi, hlo⟩ | hbits := h
  · have hx : x = 0xC0000000 := by rw [← joinD_split x, hhi, hlo]; rfl
    subst hx
    decide
  · have := (topBits_differ_iff x).mp hbits
    omega

/-- A negative value of magnitude less than 2^30 is not stopped at, so the first stop of -2^(30-k) is at k. -/
theorem firstStop_eq {x : Long} {j k : Nat} (hk : k ≤ 30) (hx : x.toInt * 2 ^ k = -(2 ^ 30))
    (hbefore : ∀ i, i < j → ¬ NorStops 0xC000 (x <<< i)) (hstop : j = 31 ∨ NorStops 0xC000 (x <<< j)) : j = k := by
  rcases Nat.lt_trichotomy j k with hlt | heq | hgt
  · have hvalue := toInt_shiftLeft_before_stop (Nat.le_refl j) hbefore
    have hbound := toInt_of_norStops_C000 (hstop.resolve_left (by omega))
    obtain ⟨m, rfl⟩ := Nat.exists_eq_add_of_lt hlt
    have hpow : (x <<< j).toInt * (2 ^ m * 2) = -(2 ^ 30) := by
      rw [hvalue, ← hx, Nat.add_assoc, Int.pow_add, Int.pow_succ, Int.mul_assoc]
    have hpos : (1 : Int) ≤ 2 ^ m := one_le_pow₀ (by decide)
    obtain hlow | hhigh := hbound <;> nlinarith
  · exact heq
  · refine absurd ?_ (hbefore k hgt)
    rw [eq_C0000000_of_toInt ((toInt_shiftLeft_before_stop (Nat.le_of_lt hgt) hbefore).trans hx)]
    exact norStops_C0000000

/-- Settles O26: the first stop is where D has become -2^30. -/
theorem alternativeNorStopsAtMinusTwoToTheThirty : Obligations.AlternativeNorStopsAtMinusTwoToTheThirty := by
  intro s acc data k hinit hspecial hk hD
  obtain ⟨t, j, hexec, -, -, hsc, hshift, hbefore, hstop, -⟩ := Normalize.norShiftsToTheFirstStop.2 s acc data hinit
  rw [hspecial] at hbefore hstop
  obtain rfl := firstStop_eq hk hD hbefore hstop
  have hvalue := (toInt_shiftLeft_before_stop (Nat.le_refl j) hbefore).trans hD
  have ht : joinD t.ac t.mq = 0xC0000000 := hshift.trans (eq_C0000000_of_toInt hvalue)
  exact ⟨t, hexec, (hiWord_joinD ..).symm.trans (congrArg hiWord ht), (loWord_joinD ..).symm.trans (congrArg loWord ht), hsc⟩

end Sys2Proof.Proofs.Values

/-! PROOFS. The shift statements (42_eae_shift_normalize.md R142 to R153): the bits of LSH and ASH by shift code, the state a shift leaves,
and shifting there and back. -/

namespace Sys2Proof.Proofs.Shifts

open Sys2Proof.Machine Sys2Proof.Safety Sys2Proof.Laws

/-! ## The state a shift leaves (R106, R120, R143, R149) -/

/-- The state after a write cycle to LSH or ASH whose shift had the given result. -/
def afterShift (s : State) (r : EaeReg) (acc : Access) (data : Word) (res : ShiftResult) : State :=
  (publish (shiftEnd res) (s.busWrite r data acc)).withReply none

section
variable (s : State) (r : EaeReg) (acc : Access) (data : Word) (res : ShiftResult)

@[simp] theorem dOf_afterShift : dOf (afterShift s r acc data res) = res.d := joinD_split res.d
@[simp] theorem afterShift_sc : (afterShift s r acc data res).sc = 0 := rfl
theorem afterShift_n :
    (afterShift s r acc data res).sr.n = (afterShift s r acc data res).ac.getLsbD 15 := by
  rw [afterShift, withReply_sr, withReply_ac, publish_n, publish_ac, Status.shiftEnd_n]
@[simp] theorem afterShift_c : (afterShift s r acc data res).sr.c = res.c := by
  rw [afterShift, withReply_sr, publish_c, shiftEnd, endToggle_c]
@[simp] theorem overflow_afterShift : overflow (afterShift s r acc data res) = res.v := by
  rw [afterShift, MulDiv.overflow_publish, shiftEnd, endToggle_overflow, Bool.false_xor]
theorem afterShift_committed : Committed s (afterShift s r acc data res) r acc data := committed_publish ..

end

/-- The shift code is the operand's low six bits (R142). -/
theorem shiftCode_eq (v : Word) : shiftCode v = v.toNat % 64 := by simp [shiftCode]

/-- The state after an admitted LSH (R143). -/
theorem exec_lsh (acc : Access) (data : Word) {s : State} (h : s.initAsserted = false) :
    exec (eaeDatoInstr .lsh acc data) s =
      .next (afterShift s .lsh acc data (lshShift (dOf s) ((operandAt s .lsh acc data).toNat % 64))) := by
  rw [MulDiv.exec_eaeDato_admitted .lsh acc data h, ← shiftCode_eq]
  rfl

/-- The state after an admitted ASH (R149). -/
theorem exec_ash (acc : Access) (data : Word) {s : State} (h : s.initAsserted = false) :
    exec (eaeDatoInstr .ash acc data) s =
      .next (afterShift s .ash acc data (ashShift (dOf s) ((operandAt s .ash acc data).toNat % 64))) := by
  rw [MulDiv.exec_eaeDato_admitted .ash acc data h, ← shiftCode_eq]
  rfl

/-- A bit of D shifted left (R10). -/
theorem shiftLeft_bit (d : Long) (n k : Nat) (hk : k < 32) : (d <<< n).getLsbD k = (decide (n ≤ k) && d.getLsbD (k - n)) :=
  shl32_bit d n k hk

/-! ## The bits shifted out of D to the left (R143, R149) -/

/-- The model's `sout`: D shifted right m places with its sign, over all-sign from bit n. -/
def shiftedOut (d : Long) (m n : Nat) : Long := asr32 d m ||| shl32 (negBit (signLong d)) n

/-- The low n bits of `sout` are those of D from bit m, the others D's sign. -/
theorem shiftedOut_bit (d : Long) {m n k : Nat} (hmn : 31 ≤ m + n) (hmn' : m + n ≤ 32) (hk : k < 32) :
    (shiftedOut d m n).getLsbD k = if k < n then d.getLsbD (m + k) else d.getLsbD 31 := by
  rw [shiftedOut, BitVec.getLsbD_or, asr32_bit d m k hk, shl32_bit _ n k hk]
  by_cases hlt : k < n
  · rw [if_pos (by omega), if_pos hlt]
    simp [Nat.not_le.mpr hlt]
  · have hsign : (if m + k < 32 then d.getLsbD (m + k) else d.getLsbD 31) = d.getLsbD 31 := by
      split
      · rw [show m + k = 31 by omega]
      · rfl
    rw [hsign, if_neg hlt, negBit_bit _ _ (by omega)]
    simp [signLong]

/-- A long is all b when each of its bits is. -/
theorem eq_negBit_iff (x : Long) (b : Bool) : x = negBit b ↔ ∀ k, k < 32 → x.getLsbD k = b := by
  refine ⟨fun h k hk => by rw [h, negBit_bit b k hk], fun h => ?_⟩
  apply BitVec.eq_of_getLsbD_eq
  intro k hk
  rw [h k hk, negBit_bit b k hk]

/-- `sout` is all b when the bits shifted out and D's sign are b. -/
theorem shiftedOut_eq_negBit_iff (d : Long) (b : Bool) {m n : Nat} (hmn : 31 ≤ m + n) (hmn' : m + n ≤ 32) (hn : n ≤ 31) :
    shiftedOut d m n = negBit b ↔ (∀ j, m ≤ j → j < m + n → d.getLsbD j = b) ∧ d.getLsbD 31 = b := by
  rw [eq_negBit_iff]
  refine ⟨fun h => ⟨fun j hj hj' => ?_, ?_⟩, fun ⟨hout, hsign⟩ k hk => ?_⟩
  · have hbit := h (j - m) (by omega)
    rwa [shiftedOut_bit d hmn hmn' (by omega), if_pos (by omega), Nat.add_sub_cancel' hj] at hbit
  · have hbit := h 31 (by decide)
    rwa [shiftedOut_bit d hmn hmn' (by decide), if_neg (by omega)] at hbit
  · rw [shiftedOut_bit d hmn hmn' hk]
    split
    · exact hout (m + k) (by omega) (by omega)
    · exact hsign

/-! ## LSH by shift code (R143 to R145) -/

section
variable (d : Long) {n : Nat}

/-- LSH left, in one equation. -/
theorem lshShift_left (h1 : 1 ≤ n) (h31 : n ≤ 31) :
    lshShift d n =
      { d := d <<< n
        v := decide (shiftedOut d (32 - n) n ≠ negBit (signLong (shl32 d n)))
        c := (shiftedOut d (32 - n) n).getLsbD 0 } := by
  rw [lshShift, if_neg (by omega), if_pos (by omega)]
  rfl

theorem lshShift_left_v (h1 : 1 ≤ n) (h31 : n ≤ 31) :
    (lshShift d n).v = false ↔ ∀ j, 31 - n ≤ j → j ≤ 31 → d.getLsbD j = d.getLsbD 31 := by
  have hsign : signLong (shl32 d n) = d.getLsbD (31 - n) := by
    rw [signLong, shl32_bit d n 31 (by decide)]
    simp [h31]
  rw [lshShift_left d h1 h31, decide_eq_false_iff_not, not_not, hsign,
    shiftedOut_eq_negBit_iff d _ (by omega) (by omega) h31]
  refine ⟨fun ⟨hout, htop⟩ j hj hj' => ?_, fun h => ⟨fun j hj hj' => ?_, ?_⟩⟩
  · rcases Nat.eq_or_lt_of_le hj with rfl | hlt
    · exact htop.symm
    · rw [hout j (by omega) (by omega), htop]
  · rw [h j (by omega) (by omega), h (31 - n) (Nat.le_refl _) (by omega)]
  · exact (h (31 - n) (Nat.le_refl _) (by omega)).symm

theorem lshShift_left_c (h1 : 1 ≤ n) (h31 : n ≤ 31) : (lshShift d n).c = d.getLsbD (32 - n) := by
  rw [lshShift_left d h1 h31]
  exact (shiftedOut_bit d (by omega) (by omega) (by decide)).trans (if_pos (by omega))

/-- LSH right, in one equation; 32 places give 0 with no exception. -/
theorem lshShift_right (h32 : 32 ≤ n) (h63 : n < 64) :
    lshShift d n = { d := d >>> (64 - n), v := false, c := d.getLsbD (63 - n) } := by
  have hd : (if n = 32 then 0 else lsr32 d (64 - n)) = d >>> (64 - n) := by
    split
    next h => rw [h]; exact (BitVec.ushiftRight_eq_zero (by decide)).symm
    next => rfl
  rw [lshShift, if_neg (by omega), if_neg (by omega), hd, asr32_bit d _ 0 (by decide), Nat.add_zero, if_pos (by omega)]

/-! ## ASH by shift code (R149 to R151) -/

/-- ASH left, in one equation. -/
theorem ashShift_left (h1 : 1 ≤ n) (h31 : n ≤ 31) :
    ashShift d n =
      { d := (d &&& 0x80000000) ||| (shl32 d n &&& 0x7FFFFFFF)
        v := decide (shiftedOut d (31 - n) n ≠ negBit (signLong ((d &&& 0x80000000) ||| (shl32 d n &&& 0x7FFFFFFF))))
        c := (shiftedOut d (31 - n) n).getLsbD 0 } := by
  rw [ashShift, if_neg (by omega), if_pos (by omega)]
  rfl

/-- ASH left keeps bit 31 and shifts the others. -/
theorem signKept_bit {k : Nat} (hk : k < 32) :
    ((d &&& 0x80000000) ||| (shl32 d n &&& 0x7FFFFFFF)).getLsbD k = if k = 31 then d.getLsbD 31 else (d <<< n).getLsbD k := by
  have hmask : (0x80000000 : Long).getLsbD k = decide (k = 31) ∧ (0x7FFFFFFF : Long).getLsbD k = !decide (k = 31) := by
    revert k; decide
  rw [BitVec.getLsbD_or, BitVec.getLsbD_and, BitVec.getLsbD_and, hmask.1, hmask.2]
  split
  next h => simp [h]
  next h => simp [h, shl32]

theorem ashShift_left_bit (h1 : 1 ≤ n) (h31 : n ≤ 31) {k : Nat} (hk : k < 32) :
    (ashShift d n).d.getLsbD k = if k = 31 then d.getLsbD 31 else (d <<< n).getLsbD k := by
  rw [ashShift_left d h1 h31]
  exact signKept_bit d hk

theorem ashShift_left_v (h1 : 1 ≤ n) (h31 : n ≤ 31) :
    (ashShift d n).v = false ↔ ∀ j, 31 - n ≤ j → j ≤ 30 → d.getLsbD j = d.getLsbD 31 := by
  have hsign : signLong ((d &&& 0x80000000) ||| (shl32 d n &&& 0x7FFFFFFF)) = d.getLsbD 31 := signKept_bit d (by decide)
  rw [ashShift_left d h1 h31, decide_eq_false_iff_not, not_not, hsign,
    shiftedOut_eq_negBit_iff d _ (by omega) (by omega) h31]
  exact ⟨fun ⟨hout, _⟩ j hj hj' => hout j hj (by omega), fun h => ⟨fun j hj hj' => h j hj (by omega), rfl⟩⟩

theorem ashShift_left_c (h1 : 1 ≤ n) (h31 : n ≤ 31) : (ashShift d n).c = d.getLsbD (31 - n) := by
  rw [ashShift_left d h1 h31]
  exact (shiftedOut_bit d (by omega) (by omega) (by decide)).trans (if_pos (by omega))

/-- Without overflow ASH left is the plain shift, and loses nothing. -/
theorem ashShift_left_of_noOverflow (h1 : 1 ≤ n) (h31 : n ≤ 31) (hv : (ashShift d n).v = false) :
    (ashShift d n).d = d <<< n ∧ (d <<< n).toInt = d.toInt * 2 ^ n := by
  have hsame := (ashShift_left_v d h1 h31).mp hv
  have hbit : ∀ j, 31 - n ≤ j → j ≤ 31 → d.getLsbD j = d.getLsbD 31 := fun j hj hj' => by
    rcases Nat.eq_or_lt_of_le hj' with rfl | hlt
    · rfl
    · exact hsame j hj (by omega)
  constructor
  · apply BitVec.eq_of_getLsbD_eq
    intro k hk
    rw [ashShift_left_bit d h1 h31 hk]
    split
    next h =>
      subst h
      rw [shiftLeft_bit d n 31 (by decide), hbit (31 - n) (Nat.le_refl _) (by omega)]
      simp [h31]
    next => rfl
  · refine Values.toInt_shiftLeft_of_topBits fun j hj => ?_
    rw [shiftLeft_bit d j 31 (by decide), shiftLeft_bit d j 30 (by decide), hbit (31 - j) (by omega) (by omega),
      hbit (30 - j) (by omega) (by omega), decide_eq_true (by omega), decide_eq_true (by omega)]

/-- ASH right, in one equation: D shifted with copies of its sign. -/
theorem ashShift_right (h32 : 32 ≤ n) (h63 : n < 64) :
    ashShift d n = { d := d.sshiftRight (64 - n), v := false, c := d.getLsbD (63 - n) } := by
  have hd : (if n = 32 then negBit (signLong d) else lsr32 d (64 - n) ||| shl32 (negBit (signLong d)) (n - 32))
      = asr32 d (64 - n) := by
    apply BitVec.eq_of_getLsbD_eq
    intro k hk
    rw [asr32_bit d _ k hk]
    split
    next h => rw [negBit_bit _ _ hk, if_neg (by omega), signLong]
    next h =>
      rw [BitVec.getLsbD_or, lsr32_bit, shl32_bit _ _ _ hk, negBit_bit _ _ (by omega), signLong]
      by_cases hlt : 64 - n + k < 32
      · simp [hlt, show ¬ n - 32 ≤ k by omega]
      · simp [hlt, show n - 32 ≤ k by omega, BitVec.getLsbD_of_ge d (64 - n + k) (by omega)]
  rw [ashShift, if_neg (by omega), if_neg (by omega), hd, asr32_bit d _ 0 (by decide), Nat.add_zero, if_pos (by omega)]
  rfl

/-- No shift by ASH changes the sign of D. -/
theorem ashShift_sign (h63 : n < 64) : (ashShift d n).d.getLsbD 31 = d.getLsbD 31 := by
  obtain h0 | h1 := Nat.eq_zero_or_pos n
  · rw [h0]; rfl
  · by_cases h31 : n ≤ 31
    · rw [ashShift_left_bit d h1 h31 (by decide), if_pos rfl]
    · rw [ashShift_right d (by omega) h63]
      exact (asr32_bit d _ 31 (by decide)).trans (if_neg (by omega))

end

/-! ## One shift (R144, R145, R150, R151, R153) -/

/-- Settles O27: `lshShift` for codes 1 to 31. -/
theorem lshLeftShiftsAndReportsLostBits : Obligations.LshLeftShiftsAndReportsLostBits := by
  refine ⟨MulDiv.writeEncoding_idx .lsh, fun s acc data n hinit hn h1 h31 => ?_⟩
  refine ⟨_, exec_lsh acc data hinit, afterShift_committed .., ?_⟩
  rw [← hn, dOf_afterShift, overflow_afterShift, afterShift_c]
  exact ⟨by rw [lshShift_left _ h1 h31], afterShift_sc .., afterShift_n .., lshShift_left_v _ h1 h31, lshShift_left_c _ h1 h31⟩

/-- Settles O28: `lshShift` for codes 32 to 63. -/
theorem lshRightShiftsInZeros : Obligations.LshRightShiftsInZeros := by
  intro s acc data n hinit hn h32
  refine ⟨_, exec_lsh acc data hinit, afterShift_committed .., ?_⟩
  rw [← hn, dOf_afterShift, overflow_afterShift, afterShift_c, lshShift_right (dOf s) h32 (by omega)]
  exact ⟨by rw [BitVec.toNat_ushiftRight, Nat.shiftRight_eq_div_pow], afterShift_sc .., afterShift_n .., rfl, rfl⟩

/-- Settles O29: `ashShift` for codes 1 to 31. -/
theorem ashLeftKeepsTheSignAndReportsOverflow : Obligations.AshLeftKeepsTheSignAndReportsOverflow := by
  refine ⟨MulDiv.writeEncoding_idx .ash, fun s acc data n hinit hn h1 h31 => ?_⟩
  refine ⟨_, exec_ash acc data hinit, afterShift_committed .., ?_⟩
  rw [← hn, dOf_afterShift, overflow_afterShift, afterShift_c]
  refine ⟨ashShift_sign _ (by omega), fun j hj => ?_, afterShift_sc .., afterShift_n .., ashShift_left_v _ h1 h31, ashShift_left_c _ h1 h31,
    fun hv => ?_⟩
  · rw [ashShift_left_bit _ h1 h31 (by omega), if_neg (by omega)]
  · obtain ⟨hd, hvalue⟩ := ashShift_left_of_noOverflow _ h1 h31 hv
    rw [hd, hvalue]

/-- Shifting right with copies of the sign divides rounding down (R151). -/
theorem toInt_sshiftRight_eq_fdiv (d : Long) (k : Nat) : (d.sshiftRight k).toInt = d.toInt.fdiv (2 ^ k) := by
  rw [BitVec.toInt_sshiftRight, Int.shiftRight_eq_div_pow, Int.fdiv_eq_ediv_of_nonneg _ (by positivity)]
  norm_cast

/-- Settles O30: `ashShift` for codes 32 to 63. -/
theorem ashRightDividesRoundingDown : Obligations.AshRightDividesRoundingDown := by
  intro s acc data n hinit hn h32
  refine ⟨_, exec_ash acc data hinit, afterShift_committed .., ?_⟩
  rw [← hn, dOf_afterShift, overflow_afterShift, afterShift_c, ashShift_right (dOf s) h32 (by omega)]
  exact ⟨toInt_sshiftRight_eq_fdiv .., afterShift_sc .., afterShift_n .., rfl, rfl⟩

/-- Without overflow NXV is N (R124). -/
theorem nxv_of_not_overflow {t : State} (h : overflow t = false) : t.sr.nxv = t.sr.n := by
  revert h
  rw [overflow]
  cases t.sr.n <;> cases t.sr.nxv <;> simp

/-- A shift that leaves D as it was, with V and C clear, rewrites the flags (R153). -/
theorem afterShift_of_zero (s : State) (r : EaeReg) (acc : Access) (data : Word) :
    ∃ t, afterShift s r acc data ⟨dOf s, false, false⟩ = t ∧ Committed s t r acc data ∧ t.ac = s.ac ∧ t.mq = s.mq ∧ t.sc = 0
      ∧ t.sr.n = s.ac.getLsbD 15 ∧ t.sr.nxv = s.ac.getLsbD 15 ∧ t.sr.c = false := by
  have hac : (afterShift s r acc data ⟨dOf s, false, false⟩).ac = s.ac := hiWord_joinD ..
  have hn := (afterShift_n s r acc data ⟨dOf s, false, false⟩).trans (by rw [hac])
  have hnxv := nxv_of_not_overflow (overflow_afterShift s r acc data ⟨dOf s, false, false⟩)
  exact ⟨_, rfl, afterShift_committed .., hac, loWord_joinD .., rfl, hn, hnxv.trans hn, afterShift_c ..⟩

/-- Settles O31: code 0 is the first branch of either shift. -/
theorem shiftCodeZeroRewritesTheFlags : Obligations.ShiftCodeZeroRewritesTheFlags := by
  intro s r acc data hinit hr hzero
  obtain ⟨t, rfl, h⟩ := afterShift_of_zero s r acc data
  refine ⟨_, ?_, h⟩
  obtain rfl | rfl := hr
  · rw [exec_lsh acc data hinit, hzero]; rfl
  · rw [exec_ash acc data hinit, hzero]; rfl

/-! ## There and back (R146, R152) -/

/-- A word that is a shift code. -/
theorem operandAt_code (s : State) {r : EaeReg} (hr : r ≠ .nor) {n : Nat} (h : n < 64) :
    (operandAt s r .word (BitVec.ofNat 16 n)).toNat % 64 = n := by
  rw [Status.operandAt_word s hr, BitVec.toNat_ofNat]
  omega

/-- LSH by a code written as a word. -/
theorem exec_datoWLsh {n : Nat} (h : n < 64) {s : State} (hinit : s.initAsserted = false) :
    exec (.datoWLsh (BitVec.ofNat 16 n)) s = .next (afterShift s .lsh .word (BitVec.ofNat 16 n) (lshShift (dOf s) n)) := by
  have hexec := exec_lsh .word (BitVec.ofNat 16 n) hinit
  rwa [operandAt_code s (by decide) h] at hexec

/-- ASH by a code written as a word. -/
theorem exec_datoWAsh {n : Nat} (h : n < 64) {s : State} (hinit : s.initAsserted = false) :
    exec (.datoWAsh (BitVec.ofNat 16 n)) s = .next (afterShift s .ash .word (BitVec.ofNat 16 n) (ashShift (dOf s) n)) := by
  have hexec := exec_ash .word (BitVec.ofNat 16 n) hinit
  rwa [operandAt_code s (by decide) h] at hexec

section
variable (d : Long) {n : Nat}

theorem shiftRight_of_shiftLeft_bit {k : Nat} (hk : k < 32) :
    ((d <<< n) >>> n).getLsbD k = (decide (k < 32 - n) && d.getLsbD k) := by
  rw [BitVec.getLsbD_ushiftRight]
  by_cases h : k < 32 - n
  · rw [shiftLeft_bit d n _ (by omega)]
    simp [h]
  · rw [BitVec.getLsbD_of_ge _ _ (by omega)]
    simp [h]

theorem shiftLeft_of_shiftRight_bit {k : Nat} (hk : k < 32) : ((d >>> n) <<< n).getLsbD k = (decide (n ≤ k) && d.getLsbD k) := by
  rw [shiftLeft_bit _ n k hk, BitVec.getLsbD_ushiftRight]
  by_cases h : n ≤ k
  · rw [Nat.add_sub_cancel' h]
  · simp [h]

/-- Masking bits of D gives D back exactly when the bits masked out are clear. -/
theorem eq_self_iff_of_bits {x : Long} {kept : Nat → Bool} (h : ∀ k, k < 32 → x.getLsbD k = (kept k && d.getLsbD k)) :
    x = d ↔ ∀ j, j < 32 → kept j = false → d.getLsbD j = false := by
  refine ⟨fun hx j hj hmask => ?_, fun hclear => ?_⟩
  · rw [← hx, h j hj, hmask, Bool.false_and]
  · apply BitVec.eq_of_getLsbD_eq
    intro k hk
    rw [h k hk]
    cases hkept : kept k
    · rw [hclear k hk hkept, Bool.and_false]
    · exact Bool.true_and _

theorem toNat_shiftRight_of_shiftLeft (hn : n ≤ 32) : ((d <<< n) >>> n).toNat = d.toNat % 2 ^ (32 - n) := by
  have hpow : 2 ^ 32 = 2 ^ n * 2 ^ (32 - n) := by rw [← Nat.pow_add, Nat.add_sub_cancel' hn]
  rw [BitVec.toNat_ushiftRight, BitVec.toNat_shiftLeft, Nat.shiftRight_eq_div_pow, Nat.shiftLeft_eq, hpow,
    Nat.mod_mul_right_div_self, Nat.mul_div_cancel _ (Nat.two_pow_pos n)]

theorem toNat_shiftLeft_of_shiftRight : ((d >>> n) <<< n).toNat = d.toNat - d.toNat % 2 ^ n := by
  have hdiv := Nat.div_add_mod' d.toNat (2 ^ n)
  rw [BitVec.toNat_shiftLeft, BitVec.toNat_ushiftRight, Nat.shiftRight_eq_div_pow, Nat.shiftLeft_eq,
    Nat.mod_eq_of_lt (by omega)]
  omega

end

/-- LSH left by n, then right by n: the code for right is 64 - n. -/
theorem lshShift_left_right (d : Long) {n : Nat} (h1 : 1 ≤ n) (h31 : n ≤ 31) :
    (lshShift (lshShift d n).d (64 - n)).d = (d <<< n) >>> n := by
  rw [lshShift_right _ (by omega) (by omega), lshShift_left d h1 h31, show 64 - (64 - n) = n by omega]

/-- LSH right by n, then left by n. -/
theorem lshShift_right_left (d : Long) {n : Nat} (h1 : 1 ≤ n) (h31 : n ≤ 31) :
    (lshShift (lshShift d (64 - n)).d n).d = (d >>> n) <<< n := by
  rw [lshShift_left _ h1 h31, lshShift_right d (by omega) (by omega), show 64 - (64 - n) = n by omega]

/-- Settles O32: two shifts each way, and the bits they leave. -/
theorem logicalShiftRoundTrips : Obligations.LogicalShiftRoundTrips := by
  intro s n hinit h1 h31
  refine ⟨⟨_, _, exec_datoWLsh (by omega) hinit, exec_datoWLsh (by omega) hinit, ?_⟩,
    _, _, exec_datoWLsh (by omega) hinit, exec_datoWLsh (by omega) hinit, ?_⟩
  · rw [dOf_afterShift, dOf_afterShift, afterShift_c, lshShift_left_right _ h1 h31]
    refine ⟨toNat_shiftRight_of_shiftLeft _ (by omega),
      (eq_self_iff_of_bits _ fun k => shiftRight_of_shiftLeft_bit _).trans ?_, lshShift_left_c _ h1 h31⟩
    simp only [decide_eq_false_iff_not]
    exact ⟨fun h j hj hj' => h j (by omega) (by omega), fun h j hj hj' => h j (by omega) (by omega)⟩
  · rw [dOf_afterShift, dOf_afterShift, afterShift_c, lshShift_right_left _ h1 h31]
    refine ⟨toNat_shiftLeft_of_shiftRight _, (eq_self_iff_of_bits _ fun k => shiftLeft_of_shiftRight_bit _).trans ?_, ?_⟩
    · simp only [decide_eq_false_iff_not]
      exact ⟨fun h j hj => h j (by omega) (by omega), fun h j hj hj' => h j (by omega)⟩
    · rw [lshShift_right _ (by omega) (by omega), show 63 - (64 - n) = n - 1 by omega]

/-- ASH left and right again: below bit 31 - n D comes back, above it every bit is the sign. -/
theorem sshiftRight_ashShift_bit (d : Long) {n k : Nat} (h1 : 1 ≤ n) (h31 : n ≤ 31) (hk : k < 32) :
    ((ashShift d n).d.sshiftRight n).getLsbD k = if k < 31 - n then d.getLsbD k else d.getLsbD 31 := by
  rw [show (ashShift d n).d.sshiftRight n = asr32 (ashShift d n).d n from rfl, asr32_bit _ _ _ hk]
  have hsign := ashShift_sign d (show n < 64 by omega)
  split
  next hlt =>
    rw [ashShift_left_bit d h1 h31 hlt]
    split
    next h => rw [if_neg (by omega)]
    next h => rw [if_pos (by omega), shiftLeft_bit d n _ hlt]; simp
  next hge => rw [if_neg (by omega), hsign]

/-- So D comes back exactly when nothing overflowed. -/
theorem sshiftRight_ashShift_eq_iff (d : Long) {n : Nat} (h1 : 1 ≤ n) (h31 : n ≤ 31) :
    (ashShift d n).d.sshiftRight n = d ↔ (ashShift d n).v = false := by
  rw [ashShift_left_v d h1 h31]
  refine ⟨fun h j hj hj' => ?_, fun h => BitVec.eq_of_getLsbD_eq fun k hk => ?_⟩
  · have hbit := sshiftRight_ashShift_bit d h1 h31 (show j < 32 by omega)
    rwa [h, if_neg (by omega)] at hbit
  · rw [sshiftRight_ashShift_bit d h1 h31 hk]
    split
    next => rfl
    next =>
      rcases Nat.eq_or_lt_of_le (show k ≤ 31 by omega) with rfl | hlt
      · rfl
      · exact (h k (by omega) (by omega)).symm

/-- ASH right and left again never overflows: the bits shifted in were the sign. -/
theorem ashShift_of_sshiftRight_v (d : Long) {n : Nat} (h1 : 1 ≤ n) (h31 : n ≤ 31) : (ashShift (d.sshiftRight n) n).v = false := by
  refine (ashShift_left_v _ h1 h31).mpr fun j hj hj' => ?_
  have hsign : (asr32 d n).getLsbD 31 = d.getLsbD 31 := (asr32_bit d n 31 (by decide)).trans (if_neg (by omega))
  rw [show d.sshiftRight n = asr32 d n from rfl, hsign, asr32_bit d n j (by omega)]
  split
  · rw [show n + j = 31 by omega]
  · rfl

/-- So it is the plain shift, which clears the low n bits. -/
theorem ashShift_of_sshiftRight (d : Long) {n : Nat} (h1 : 1 ≤ n) (h31 : n ≤ 31) :
    (ashShift (d.sshiftRight n) n).d = (d >>> n) <<< n := by
  obtain ⟨hd, -⟩ := ashShift_left_of_noOverflow _ h1 h31 (ashShift_of_sshiftRight_v d h1 h31)
  rw [hd]
  apply BitVec.eq_of_getLsbD_eq
  intro k hk
  rw [shiftLeft_bit _ n k hk, shiftLeft_bit _ n k hk, BitVec.getLsbD_ushiftRight]
  by_cases h : n ≤ k
  · rw [show d.sshiftRight n = asr32 d n from rfl, asr32_bit d n _ (by omega), if_pos (by omega)]
  · simp [h]

/-- Settles O33: the bits after the two shifts; the sign is kept by each branch. -/
theorem arithmeticShiftRoundTrips : Obligations.ArithmeticShiftRoundTrips := by
  refine ⟨fun s n hinit h1 h31 => ?_, fun s acc data hinit => ?_⟩
  · have right : ∀ d, ashShift d (64 - n) = ⟨d.sshiftRight n, false, d.getLsbD (n - 1)⟩ := fun d => by
      rw [ashShift_right d (by omega) (by omega), show 64 - (64 - n) = n by omega, show 63 - (64 - n) = n - 1 by omega]
    refine ⟨⟨_, _, exec_datoWAsh (by omega) hinit, exec_datoWAsh (by omega) hinit, ?_⟩,
      _, _, exec_datoWAsh (by omega) hinit, exec_datoWAsh (by omega) hinit, ?_⟩
    · rw [dOf_afterShift, dOf_afterShift, overflow_afterShift, right]
      exact sshiftRight_ashShift_eq_iff _ h1 h31
    · rw [dOf_afterShift, overflow_afterShift, dOf_afterShift, right]
      exact ⟨by rw [ashShift_of_sshiftRight _ h1 h31, toNat_shiftLeft_of_shiftRight], ashShift_of_sshiftRight_v _ h1 h31⟩
  · exact ⟨_, exec_ash acc data hinit, by rw [dOf_afterShift, ashShift_sign _ (by omega)]⟩

end Sys2Proof.Proofs.Shifts
